-- ==== Sys2Proof/Word.lean ====
section
/-! DEFINITION. The word types of KCODEC: a wire byte, a host data word and a host address
(spec/00_scope.md R5, R6, R7). -/

namespace Sys2Proof

/-- A byte (R6, BYTE_BITS = 8). -/
abbrev Byte := BitVec 8

/-- A host data word (R5, HOST_DATA_BITS = 16): what one host access moves. -/
abbrev Half := BitVec 16

/-- A host address (R5, HOST_ADDR_BITS = 12). -/
abbrev HostAddr := BitVec 12

end Sys2Proof
end

