-- ==== Sys2Proof/Config.lean ====
section
/-! DEFINITION. The implementation parameters of spec/00_scope.md R5, and the values the spec leaves open
to KCODEC's environment: what the Line answers to a read and which agent moves next. -/

namespace Sys2Proof

/-- What one RxRead returns (R62): a byte, or the token TIMEOUT. -/
inductive RxAnswer where
  | byte (b : Byte)
  | timeout
  deriving DecidableEq, Repr, Inhabited

/-- Whose place the next place of the single order of R68 is: a Host access, an Engine step, or the
platform's reset (R200). -/
inductive Turn where
  | host
  | engine
  | reset
  deriving DecidableEq, Repr, Inhabited

namespace Config

/-- DS2_MAX_PAYLOAD (R5). -/
def ds2MaxPayload : Nat := 252

/-- KWP_MAX_PAYLOAD (R5). -/
def kwpMaxPayload : Nat := 255

/-- DS2_MAX_FRAME (R5). -/
def ds2MaxFrame : Nat := 255

/-- KWP_MAX_FRAME (R5). -/
def kwpMaxFrame : Nat := 260

/-- REQ_BUF_SIZE (R5). -/
def reqBufSize : Nat := 255

/-- TX_BUF_SIZE and RX_BUF_SIZE (R5). -/
def frameBufSize : Nat := 260

/-- KWP_HEADER (R5, R79). -/
def kwpHeader : Byte := 0xB8

/-- T_READ (R5, R181): OPEN, and no rule depends on it. It is a parameter with no value here. -/
opaque tRead : Nat

/-- T_SETTLE (R5, R204): OPEN, and no rule depends on it. It is a parameter with no value here. -/
opaque tSettle : Nat

/-- LINE_CONFIG (R5, D31): OPEN, an uninterpreted name of a serial configuration; no rule depends on it. -/
opaque lineConfig : Nat

/-- FREE VALUE (R62, I9; notes/assumptions/2.md). What the Line answers to read number `n` once the answers
listed in the state are used up: any byte or TIMEOUT, under no constraint. It has no body. -/
opaque lineAnswer : Nat → RxAnswer

/-- FREE VALUE (R68, R200; notes/assumptions/3.md). Whose turn number `n` is once the turns listed in the state
are used up. It has no body. -/
opaque turn : Nat → Turn

end Config
end Sys2Proof
end

