-- ==== Sys2Proof/Syntax.lean ====
section
/-! DEFINITION. The instructions of spec/opcode_table.json, the host-program words they are fetched from
(spec/30_encoding.md R70, R73) and the host-program statements of R83 and R84. -/

namespace Sys2Proof

/-- One constructor per row of spec/opcode_table.json. The first eight are command words (format CMD8, R70);
`hwr` and `hrd` are host access words (format HACC32, R73). -/
inductive Instr where
  /-- CSUM, CODE 0x01 (R92). -/
  | csum
  /-- ENC_DS2, CODE 0x02 (R100). -/
  | encDs2
  /-- ENC_KWP, CODE 0x03 (R120). -/
  | encKwp
  /-- DEC_DS2, CODE 0x04 (R102). -/
  | decDs2
  /-- DEC_KWP, CODE 0x05 (R122). -/
  | decKwp
  /-- XACT_DS2, CODE 0x06 (R141). -/
  | xactDs2
  /-- XACT_KWP, CODE 0x07 (R142). -/
  | xactKwp
  /-- The reserved codes 0x00 and 0x08-0xFF (R72); the code is the operand. -/
  | illegal (code : Byte)
  /-- HostWrite(addr, data) (R51). -/
  | hwr (addr : HostAddr) (data : Half)
  /-- HostRead(addr) (R50). -/
  | hrd (addr : HostAddr)
  deriving DecidableEq, Repr

/-- The seven commands of R71. -/
inductive Command where
  | csum
  | encDs2
  | encKwp
  | decDs2
  | decKwp
  | xactDs2
  | xactKwp
  deriving DecidableEq, Repr

/-- The two frame formats (R2, R74, R77). -/
inductive Protocol where
  | ds2
  | kwp
  deriving DecidableEq, Repr

/-- The registers of the map of spec/10_state.md R21. -/
inductive RegName where
  | cmd
  | state
  | result
  | detail
  | statusClass
  | statusRaw
  | csumOut
  | reqTarget
  | reqSource
  | reqLen
  | txLen
  | rxCount
  | echoCount
  | payOff
  | payLen
  deriving DecidableEq, Repr

/-- What a host address that is not reserved names (R20, R21): one whole register or one byte of a buffer. -/
inductive Loc where
  | reg (r : RegName)
  | reqPayload (i : Fin 255)
  | txFrame (i : Fin 260)
  | rxFrame (i : Fin 260)
  deriving DecidableEq, Repr

/-- A word that is decoded into an instruction: a command word (CMD8, R70) or a host access word
(HACC32, R73). -/
inductive FetchWord where
  | cmd8 (code : Byte)
  | hacc32 (w : BitVec 32)
  deriving DecidableEq, Repr

/-- One entry of a host program (R73, R84): a word, or the loop `poll`, which no finite sequence of words
expands. -/
inductive HostStmt where
  | word (w : FetchWord)
  | poll
  deriving DecidableEq, Repr

/-- A host-program statement of R83 and R84, its names and values already read from the text. -/
inductive AsmStmt where
  | wr (l : Loc) (value : Half)
  | rd (l : Loc)
  | cmd (c : Command)
  | ldreq (target : Half) (source : Option Half) (payload : List Half)
  | poll
  deriving DecidableEq, Repr

end Sys2Proof
end

