-- ==== Sys2Proof/WellFormed.lean ====
section
/-! DEFINITION. Which instructions the encodings of spec/30_encoding.md can express. -/

namespace Sys2Proof

/-- R72: CODE 0x00 and 0x08-0xFF are the reserved command codes. -/
def reservedCode (code : Byte) : Bool := code == 0x00 || decide (0x08 ≤ code.toNat)

/-- A well-formed instruction. Only `illegal` has a check of its own: its operand is a reserved code (R72).
The fields of the other instructions take every value of their width (R73). -/
def Instr.wf : Instr → Bool
  | .csum => true
  | .encDs2 => true
  | .encKwp => true
  | .decDs2 => true
  | .decKwp => true
  | .xactDs2 => true
  | .xactKwp => true
  | .illegal code => reservedCode code
  | .hwr _ _ => true
  | .hrd _ => true

end Sys2Proof
end

