-- ==== Sys2Proof/Decode.lean ====
section
/-! DEFINITION. The decoder and the encoder of the command word (R70 to R72) and of the host access word
(R73), the address map of R21 in both directions, and the expansion of host-program statements (R83, R84). -/

namespace Sys2Proof

/-- Why a host access word is malformed (R73). -/
inductive DecodeError where
  /-- bits[30:28] ≠ 000. -/
  | zeroField
  /-- W = 0 and DATA ≠ 0. -/
  | readData
  deriving DecidableEq, Repr

/-! ## Command words -/

/-- R71: the command a code selects; `none` for the reserved codes of R72. -/
def commandOf (c : Byte) : Option Command :=
  if c = 0x01 then some .csum
  else if c = 0x02 then some .encDs2
  else if c = 0x03 then some .encKwp
  else if c = 0x04 then some .decDs2
  else if c = 0x05 then some .decKwp
  else if c = 0x06 then some .xactDs2
  else if c = 0x07 then some .xactKwp
  else none

/-- R71: the code of a command. -/
def Command.code : Command → Byte
  | .csum => 0x01
  | .encDs2 => 0x02
  | .encKwp => 0x03
  | .decDs2 => 0x04
  | .decKwp => 0x05
  | .xactDs2 => 0x06
  | .xactKwp => 0x07

/-- R70 to R72: the instruction a command word stands for; every code has one. -/
def decodeCmd8 (c : Byte) : Instr :=
  match commandOf c with
  | some .csum => .csum
  | some .encDs2 => .encDs2
  | some .encKwp => .encKwp
  | some .decDs2 => .decDs2
  | some .decKwp => .decKwp
  | some .xactDs2 => .xactDs2
  | some .xactKwp => .xactKwp
  | none => .illegal c

/-! ## Host access words -/

/-- HACC32 bit 31 (R73). -/
def haccW (w : BitVec 32) : BitVec 1 := w.extractLsb' 31 1

/-- HACC32 bits 30:28 (R73). -/
def haccZero (w : BitVec 32) : BitVec 3 := w.extractLsb' 28 3

/-- HACC32 bits 27:16 (R73). -/
def haccAddr (w : BitVec 32) : HostAddr := w.extractLsb' 16 12

/-- HACC32 bits 15:0 (R73). -/
def haccData (w : BitVec 32) : Half := w.extractLsb' 0 16

/-- A HACC32 word from its fields, the zero field being 000 (R73). -/
def haccWord (write : BitVec 1) (addr : HostAddr) (data : Half) : BitVec 32 :=
  write ++ (0 : BitVec 3) ++ addr ++ data

/-- R73: the host access a word stands for, or why the word is malformed. -/
def decodeHacc32 (w : BitVec 32) : Except DecodeError Instr :=
  if haccZero w ≠ 0 then .error .zeroField
  else if haccW w = 1 then .ok (.hwr (haccAddr w) (haccData w))
  else if haccData w ≠ 0 then .error .readData
  else .ok (.hrd (haccAddr w))

/-! ## The decoder and the encoder -/

/-- The decoder, total on every word of both formats. -/
def decode : FetchWord → Except DecodeError Instr
  | .cmd8 c => .ok (decodeCmd8 c)
  | .hacc32 w => decodeHacc32 w

/-- The encoder, from the tables of R71 and R73. -/
def encode : Instr → FetchWord
  | .csum => .cmd8 0x01
  | .encDs2 => .cmd8 0x02
  | .encKwp => .cmd8 0x03
  | .decDs2 => .cmd8 0x04
  | .decKwp => .cmd8 0x05
  | .xactDs2 => .cmd8 0x06
  | .xactKwp => .cmd8 0x07
  | .illegal c => .cmd8 c
  | .hwr addr data => .hacc32 (haccWord 1 addr data)
  | .hrd addr => .hacc32 (haccWord 0 addr 0)

/-- The word of a table row: a row of at most 8 bits is a command word, a row of at most 32 bits a host
access word (spec/opcode_table.json, "format"). -/
def tableWord (nbits w : Nat) : Option FetchWord :=
  if nbits ≤ 8 then some (.cmd8 (BitVec.ofNat 8 w))
  else if nbits ≤ 32 then some (.hacc32 (BitVec.ofNat 32 w))
  else none

/-- The instruction the decoder reads from a table row's word. -/
def decodeTableWord (nbits w : Nat) : Option Instr :=
  match tableWord nbits w with
  | some fw => (decode fw).toOption
  | none => none

/-! ## The address map (R21) -/

/-- The register part of the map of R21. -/
def regMap : List (Nat × RegName) :=
  [(0x000, .cmd), (0x001, .state), (0x002, .result), (0x003, .detail), (0x004, .statusClass),
   (0x005, .statusRaw), (0x006, .csumOut), (0x008, .reqTarget), (0x009, .reqSource), (0x00A, .reqLen),
   (0x010, .txLen), (0x011, .rxCount), (0x012, .echoCount), (0x013, .payOff), (0x014, .payLen)]

/-- The address of REQ_PAYLOAD[0] (R21, R32). -/
def reqBase : Nat := 0x100

/-- The address of TX_FRAME[0] (R21, R33). -/
def txBase : Nat := 0x200

/-- The address of RX_FRAME[0] (R21, R34). -/
def rxBase : Nat := 0x400

/-- R20, R21: what a host address names; `none` for a reserved address. -/
def locOf (addr : HostAddr) : Option Loc :=
  let a := addr.toNat
  match regMap.lookup a with
  | some r => some (.reg r)
  | none =>
    if h : reqBase ≤ a ∧ a - reqBase < 255 then some (.reqPayload ⟨a - reqBase, h.2⟩)
    else if h : txBase ≤ a ∧ a - txBase < 260 then some (.txFrame ⟨a - txBase, h.2⟩)
    else if h : rxBase ≤ a ∧ a - rxBase < 260 then some (.rxFrame ⟨a - rxBase, h.2⟩)
    else none

/-- R21: the address of a register. -/
def RegName.addr : RegName → Nat
  | .cmd => 0x000
  | .state => 0x001
  | .result => 0x002
  | .detail => 0x003
  | .statusClass => 0x004
  | .statusRaw => 0x005
  | .csumOut => 0x006
  | .reqTarget => 0x008
  | .reqSource => 0x009
  | .reqLen => 0x00A
  | .txLen => 0x010
  | .rxCount => 0x011
  | .echoCount => 0x012
  | .payOff => 0x013
  | .payLen => 0x014

/-- R21: the address of a register or of a buffer byte. -/
def Loc.addr : Loc → HostAddr
  | .reg r => BitVec.ofNat 12 r.addr
  | .reqPayload i => BitVec.ofNat 12 (reqBase + i)
  | .txFrame i => BitVec.ofNat 12 (txBase + i)
  | .rxFrame i => BitVec.ofNat 12 (rxBase + i)

/-! ## Host-program statements (R83, R84) -/

/-- `wr <loc>, <value>` as its one HACC32 word (R83). -/
def wrStmt (l : Loc) (value : Half) : HostStmt := .word (.hacc32 (haccWord 1 l.addr value))

/-- `rd <loc>` as its one HACC32 word (R83). -/
def rdStmt (l : Loc) : HostStmt := .word (.hacc32 (haccWord 0 l.addr 0))

/-- The payload writes of `ldreq` (R84): `wr REQ_PAYLOAD+i, bi`, ascending from address `a`. -/
def ldPayload (a : Nat) : List Half → List HostStmt
  | [] => []
  | b :: bs => .word (.hacc32 (haccWord 1 (BitVec.ofNat 12 a) b)) :: ldPayload (a + 1) bs

/-- What a statement expands to (R83, R84). -/
def AsmStmt.expand : AsmStmt → List HostStmt
  | .wr l v => [wrStmt l v]
  | .rd l => [rdStmt l]
  | .cmd c => [wrStmt (.reg .cmd) (c.code.setWidth 16)]
  | .ldreq t src p =>
    [wrStmt (.reg .reqTarget) t]
      ++ (match src with
          | some b => [wrStmt (.reg .reqSource) b]
          | none => [])
      ++ [wrStmt (.reg .reqLen) (BitVec.ofNat 16 p.length)]
      ++ ldPayload reqBase p
  | .poll => [.poll]

/-- A program is the expansion of its statements in order (R73, R83). -/
def assemble (p : List AsmStmt) : List HostStmt := (p.map AsmStmt.expand).flatten

end Sys2Proof
end

