-- ==== Sys2Proof/Machine/State.lean ====
section
/-! DEFINITION. The state of KCODEC, its Host and its Line (spec/10_state.md), the reasons a step can stop, and
the state after reset (R46). -/

namespace Sys2Proof.Machine

/-- STATE's phases (R23). -/
inductive Phase where
  | idle
  | decoding
  | awaitingEcho
  | awaitingReply
  | complete
  | failed
  deriving DecidableEq, Repr

/-- A frame decode's verdict (R103, R123), as DETAIL records it (R25). -/
inductive Verdict where
  | ok
  | noReply
  | incompleteFrame
  | badLength
  | checksumError
  | unexpectedHeader
  deriving DecidableEq, Repr

/-- RESULT's codes (R24, R171). -/
inductive ResultCode where
  | none
  | ok
  | noReply
  | incompleteFrame
  | badLength
  | checksumError
  | unexpectedHeader
  | busError
  | addressUnreachable
  | protocolError
  | deviceStatusError
  | insufficientPayload
  | payloadTooLong
  | illegalCommand
  deriving DecidableEq, Repr

/-- STATUS_CLASS's values (R26). -/
inductive StatusClass where
  | none
  | ok
  | computerBusy
  | invalidParameter
  | invalidCommand
  | unknownStatus
  deriving DecidableEq, Repr

/-- The model faults that the fault mark FAULT records (R10, R44, R182). They are marks in a state that goes
on (R183), not stops of the machine. -/
inductive ModelFault where
  | reserved
  | readOnly
  | badWrite
  | hostBusy
  | uninit
  | stale
  deriving DecidableEq, Repr

/-- Why a step stops with a fault. Both are raised by the Engine only in states that no run from a state
meeting the invariant reaches (Safety.lean, `State.Inv`), and both are safe: the machine stops where the spec
has no rule. -/
inductive Fault where
  /-- Raised by `engineStep`: BUSY, with a CMD code that no rule runs in this phase (R143, R147). Safe. -/
  | engineNoRule
  /-- Raised by `engineStep`: BUSY, with RX_COUNT past the last byte of RX_FRAME (R34). Safe. -/
  | rxFrameOverrun
  deriving DecidableEq, Repr

/-- Why a step is refused. -/
inductive Refusal where
  /-- Raised by an arm of `exec` whose instruction has no meaning yet; no arm is such. Safe. -/
  | notModelled (mnemonic : String)
  /-- Raised by `step` on the Host's turn: the host program holds a malformed word, and R73 has such a program
  refused before it runs. Safe. -/
  | malformedProgram
  deriving DecidableEq, Repr

/-- The buffers REQ_PAYLOAD, TX_FRAME and RX_FRAME as (host address, byte) pairs (R20, R21): addresses strictly
rising, no byte equal to `Memory.blank`. -/
abbrev Memory := List Host.Cell

/-- What a buffer byte that nothing has written holds. DESIGN CHOICE, notes/assumptions/1.md: the spec leaves
it unspecified and lets no Host and no Engine read it (R59, R60). -/
def Memory.blank : Byte := 0x00

/-- The written-set W (R45), as the host addresses of its elements, strictly rising. -/
abbrev WrittenSet := List Nat

/-- The whole state. The first group is KCODEC's registers (R21), then its buffers, its hidden registers (R38,
R39), the model-only marks (R44, R45), the Line (R43), the Host (R4, R73), and the order of the agents'
steps (R68). -/
structure State where
  /-- CMD, 0x000 (R22). -/
  cmd : Byte
  /-- STATE, 0x001 (R23). -/
  phase : Phase
  /-- RESULT, 0x002 (R24). -/
  result : ResultCode
  /-- DETAIL, 0x003 (R25); `none` is 0x00. -/
  detail : Option Verdict
  /-- STATUS_CLASS, 0x004 (R26). -/
  statusClass : StatusClass
  /-- STATUS_RAW, 0x005 (R27). -/
  statusRaw : Byte
  /-- CSUM_OUT, 0x006 (R28). -/
  csumOut : Byte
  /-- REQ_TARGET, 0x008 (R29). -/
  reqTarget : Byte
  /-- REQ_SOURCE, 0x009 (R30). -/
  reqSource : Byte
  /-- REQ_LEN, 0x00A (R31). -/
  reqLen : Byte
  /-- TX_LEN, 0x010 (R33). -/
  txLen : Half
  /-- RX_COUNT, 0x011 (R34). -/
  rxCount : Half
  /-- ECHO_COUNT, 0x012 (R35). -/
  echoCount : Half
  /-- PAY_OFF, 0x013 (R36). -/
  payOff : Half
  /-- PAY_LEN, 0x014 (R36). -/
  payLen : Half
  /-- REQ_PAYLOAD, TX_FRAME and RX_FRAME (R32 to R34). -/
  mem : Memory
  /-- DEC_NEED (R38), not host-visible. -/
  decNeed : Half
  /-- DEC_ACC (R39), not host-visible. -/
  decAcc : Byte
  /-- W (R45), model-only. -/
  written : WrittenSet
  /-- FAULT (R44), model-only. -/
  faultMark : Option ModelFault
  /-- TXLOG (R43), the Line's: every byte sequence transmitted, oldest first. -/
  txLog : List (List Byte)
  /-- The receive oracle (R43, R62), the Line's: the answers to the next reads, soonest first. Past its end the
  free value `Config.lineAnswer` answers. -/
  rx : List RxAnswer
  /-- The model's own: how many reads the Line has answered. -/
  rxTaken : Nat
  /-- The Host's program (R73), the part not yet run. -/
  program : List HostStmt
  /-- The Host's: what its last HostRead returned (R50); `none` where it has made none or the last one returned
  no value (R183). -/
  hostData : Option Half
  /-- Whose the next places of the single order are (R68), soonest first. Past its end the free value
  `Config.turn` says. -/
  schedule : List Turn
  /-- The model's own: how many places of the order are taken. -/
  turnsTaken : Nat
  deriving DecidableEq, Repr

/-- The state right after reset (R46), with nothing on the Line and no host program. REQ_TARGET, REQ_SOURCE and
REQ_LEN hold 0x00 and every buffer byte `Memory.blank`: DESIGN CHOICE, notes/assumptions/1.md. -/
def State.reset : State where
  cmd := 0x00
  phase := .idle
  result := .none
  detail := none
  statusClass := .none
  statusRaw := 0x00
  csumOut := 0x00
  reqTarget := 0x00
  reqSource := 0x00
  reqLen := 0x00
  txLen := 0
  rxCount := 0
  echoCount := 0
  payOff := 0
  payLen := 0
  mem := []
  decNeed := 0
  decAcc := 0x00
  written := []
  faultMark := none
  txLog := []
  rx := []
  rxTaken := 0
  program := []
  hostData := none
  schedule := []
  turnsTaken := 0

end Sys2Proof.Machine
end

