-- ==== Sys2Proof/Machine/Flags.lean ====
section
/-! DEFINITION. The three flags derived from STATE (R37), and the numeric codes of STATE, RESULT, DETAIL and
STATUS_CLASS (R23 to R26, R171). -/

namespace Sys2Proof.Machine

/-- R37: STATE ∈ {DECODING, AWAITING_ECHO, AWAITING_REPLY}. -/
def Phase.busy : Phase → Bool
  | .decoding | .awaitingEcho | .awaitingReply => true
  | .idle | .complete | .failed => false

/-- BUSY (R37). -/
def State.busy (s : State) : Bool := s.phase.busy

/-- DONE (R37). -/
def State.done (s : State) : Bool := s.phase == .complete || s.phase == .failed

/-- ERROR (R37). -/
def State.error (s : State) : Bool := s.phase == .failed

/-- STATE's values (R23). -/
def Phase.code : Phase → Byte
  | .idle => 0x00
  | .decoding => 0x01
  | .awaitingEcho => 0x02
  | .awaitingReply => 0x03
  | .complete => 0x04
  | .failed => 0x05

/-- RESULT's codes (R171). -/
def ResultCode.code : ResultCode → Byte
  | .none => 0x00
  | .ok => 0x01
  | .noReply => 0x10
  | .incompleteFrame => 0x11
  | .badLength => 0x12
  | .checksumError => 0x13
  | .unexpectedHeader => 0x14
  | .busError => 0x20
  | .addressUnreachable => 0x21
  | .protocolError => 0x22
  | .deviceStatusError => 0x23
  | .insufficientPayload => 0x24
  | .payloadTooLong => 0x30
  | .illegalCommand => 0x31

/-- The result a verdict is, with the same number (R25). -/
def Verdict.result : Verdict → ResultCode
  | .ok => .ok
  | .noReply => .noReply
  | .incompleteFrame => .incompleteFrame
  | .badLength => .badLength
  | .checksumError => .checksumError
  | .unexpectedHeader => .unexpectedHeader

/-- DETAIL's values (R25): the verdict's number, 0x00 when no frame decode has finished. -/
def detailCode : Option Verdict → Byte
  | none => 0x00
  | some v => v.result.code

/-- STATUS_CLASS's values (R26). -/
def StatusClass.code : StatusClass → Byte
  | .none => 0x00
  | .ok => 0x01
  | .computerBusy => 0x02
  | .invalidParameter => 0x03
  | .invalidCommand => 0x04
  | .unknownStatus => 0x05

end Sys2Proof.Machine
end

