-- ==== Sys2Proof/Machine/Ops.lean ====
section
/-! DEFINITION. The named operations the meanings share: the checksum (R11), the buffers, the written-set, the
fault mark, ending a command (`raise`, `complete`), the Line (R61, R62), the frame buffers, and reset (R200). -/

namespace Sys2Proof.Machine

/-! ## Bytes -/

/-- `zext_16` (R7) of a byte. -/
def zext16 (b : Byte) : Half := b.setWidth 16

/-- `d[7:0]` of a host data word (R51). -/
def lowByte (d : Half) : Byte := d.setWidth 8

/-- `d[15:8]` of a host data word (R51, R53). -/
def highByte (d : Half) : Byte := d.extractLsb' 8 8

/-- `xor_fold` (R11), which is `checksum` (R90). -/
def xorFold (bs : List Byte) : Byte := bs.foldl (· ^^^ ·) 0x00

/-! ## The buffers: `BUF[i]`, `MemRead(addr, 1)` and `MemWrite(addr, 1, v)` (R8) -/

/-- The byte at a buffer address. -/
def Memory.read : Memory → Nat → Byte
  | [], _ => Memory.blank
  | (a, b) :: m, x => if a = x then b else Memory.read m x

/-- The buffers with the byte `v` at address `x`, in canonical form. -/
def Memory.write : Memory → Nat → Byte → Memory
  | [], x, v => if v = Memory.blank then [] else [(x, v)]
  | (a, b) :: m, x, v =>
    if x < a then (if v = Memory.blank then (a, b) :: m else (x, v) :: (a, b) :: m)
    else if x = a then (if v = Memory.blank then m else (x, v) :: m)
    else (a, b) :: Memory.write m x v

/-- Whether every address of a buffer list is above `lo`, strictly rising, with no blank byte. -/
def Memory.wfAbove : Nat → Memory → Bool
  | _, [] => true
  | lo, (a, b) :: m => decide (lo ≤ a) && (b != Memory.blank) && Memory.wfAbove (a + 1) m

/-- The canonical form: addresses strictly rising, no entry equal to what an unlisted address reads as. -/
def Memory.wf (m : Memory) : Bool := Memory.wfAbove 0 m

/-- The buffers with the bytes `bs` from address `base` on. -/
def Memory.writeBytes (m : Memory) (base : Nat) : List Byte → Memory
  | [] => m
  | b :: bs => Memory.writeBytes (m.write base b) (base + 1) bs

/-- The `n` bytes from address `base` on. -/
def Memory.readBytes (m : Memory) (base n : Nat) : List Byte :=
  (List.range n).map fun i => m.read (base + i)

/-! ## The written-set W (R45) -/

/-- W with one more element. -/
def WrittenSet.insert : WrittenSet → Nat → WrittenSet
  | [], x => [x]
  | a :: w, x => if x < a then x :: a :: w else if x = a then a :: w else a :: WrittenSet.insert w x

/-- Whether an element is in W. -/
def WrittenSet.has (w : WrittenSet) (x : Nat) : Bool := w.elem x

/-- Whether every element of W is at least `lo`, strictly rising. -/
def WrittenSet.wfAbove : Nat → WrittenSet → Bool
  | _, [] => true
  | lo, a :: w => decide (lo ≤ a) && WrittenSet.wfAbove (a + 1) w

/-- The canonical form of W: strictly rising. -/
def WrittenSet.wf (w : WrittenSet) : Bool := WrittenSet.wfAbove 0 w

/-! ## The fault mark and the end of a command -/

/-- `fault F` (R10, R183): FAULT records F if it is none, and nothing else happens. -/
def State.markFault (f : ModelFault) (s : State) : State :=
  { s with faultMark := s.faultMark.or (some f) }

/-- `raise X` (R9, R170, R175): taking a failure. STATE <- FAILED and RESULT <- code(X), and the command stops.
Nothing is vectored, saved, masked or changed in mode. There is no return from it: STATE and RESULT stay until
the next accepted CMD write or reset (R176). -/
def State.raise (r : ResultCode) (s : State) : State :=
  { s with phase := .failed, result := r }

/-- `complete` (R9): STATE <- COMPLETE and RESULT <- OK. -/
def State.complete (s : State) : State :=
  { s with phase := .complete, result := .ok }

/-- The registers every accept clears (R140). -/
def State.clearOutcome (s : State) : State :=
  { s with
    result := .none, detail := none, statusClass := .none, statusRaw := 0x00, payOff := 0, payLen := 0 }

/-! ## The Line -/

/-- `TxWrite(seq)` (R61): one entry more in TXLOG. -/
def State.txWrite (seq : List Byte) (s : State) : State :=
  { s with txLog := s.txLog ++ [seq] }

/-- What the next `RxRead()` returns (R62). -/
def State.rxAnswer (s : State) : RxAnswer :=
  match s.rx with
  | [] => Config.lineAnswer s.rxTaken
  | a :: _ => a

/-- The state after `RxRead()` (R62, R64): the answer is consumed. -/
def State.rxConsume (s : State) : State :=
  { s with rx := s.rx.tail, rxTaken := s.rxTaken + 1 }

/-! ## The frame buffers -/

/-- TX_FRAME[0 : len(f)] <- f, TX_LEN <- len(f), CSUM_OUT <- the last byte of f (R100, R120). -/
def State.storeTx (f : List Byte) (s : State) : State :=
  { s with
    mem := s.mem.writeBytes txBase f, txLen := BitVec.ofNat 16 f.length, csumOut := f.getLastD 0x00 }

/-- Byte `i` of TX_FRAME. -/
def State.txByte (s : State) (i : Nat) : Byte := s.mem.read (txBase + i)

/-- Byte `i` of RX_FRAME. -/
def State.rxByte (s : State) (i : Nat) : Byte := s.mem.read (rxBase + i)

/-- TX_FRAME[0 : TX_LEN] (R33). -/
def State.txFrame (s : State) : List Byte := s.mem.readBytes txBase s.txLen.toNat

/-- RX_FRAME[0 : RX_COUNT] (R34). -/
def State.rxFrame (s : State) : List Byte := s.mem.readBytes rxBase s.rxCount.toNat

/-- `DecBegin()` (R103). -/
def State.decBegin (s : State) : State :=
  { s with rxCount := 0, decNeed := 0, decAcc := 0x00 }

/-- The store of one received byte (R103, R123): RX_FRAME[RX_COUNT] <- r, RX_COUNT + 1, DEC_ACC XOR r. -/
def State.storeRx (r : Byte) (s : State) : State :=
  { s with
    mem := s.mem.write (rxBase + s.rxCount.toNat) r
    rxCount := s.rxCount + 1
    decAcc := s.decAcc ^^^ r }

/-- DEC_NEED <- n (R38). -/
def State.setNeed (n : Half) (s : State) : State := { s with decNeed := n }

/-- The test that ends a frame (R103, R123): `none` is CONTINUE. -/
def State.frameEnd (s : State) : Option Verdict :=
  if s.decNeed ≠ 0 ∧ s.rxCount = s.decNeed then
    some (if s.decAcc = 0x00 then .ok else .checksumError)
  else none

/-! ## Reset -/

/-- The reset event (R200, R201): KCODEC's registers, hidden registers and W get the values of R46, at once and in
any STATE. FAULT, TXLOG and the receive oracle are unchanged, and so are the Host and the order of steps. The
unspecified registers and buffers get the values they have in `State.reset` (notes/assumptions/1.md). -/
def State.applyReset (s : State) : State :=
  { State.reset with
    faultMark := s.faultMark, txLog := s.txLog, rx := s.rx, rxTaken := s.rxTaken, program := s.program,
    hostData := s.hostData, schedule := s.schedule, turnsTaken := s.turnsTaken }

end Sys2Proof.Machine
end

