-- ==== Sys2Proof/Machine/Operands.lean ====
section
/-! DEFINITION. The operands of commands and of host accesses: the request registers a command reads (R29 to R32)
and whether the Host has written them (R140, R203), and the locations of the register map: which can be written
(R21), what a write stores, and what a read returns (R50, R59, R60). -/

namespace Sys2Proof.Machine

/-! ## Command operands -/

/-- REQ_PAYLOAD[0 : REQ_LEN] (R32). -/
def State.payload (s : State) : List Byte := s.mem.readBytes reqBase s.reqLen.toNat

/-- Whether REQ_LEN ∈ W. -/
def State.lenWritten (s : State) : Bool := s.written.has RegName.reqLen.addr

/-- Whether REQ_TARGET ∈ W. -/
def State.targetWritten (s : State) : Bool := s.written.has RegName.reqTarget.addr

/-- Whether REQ_SOURCE ∈ W. -/
def State.sourceWritten (s : State) : Bool := s.written.has RegName.reqSource.addr

/-- Whether every REQ_PAYLOAD[i] with i < REQ_LEN is in W. -/
def State.payloadWritten (s : State) : Bool :=
  (List.range s.reqLen.toNat).all fun i => s.written.has (reqBase + i)

/-- Whether a DS2 frame cannot hold the payload: REQ_LEN > 252 (R75, R100). -/
def State.tooLong (s : State) : Bool := decide (Config.ds2MaxPayload < s.reqLen.toNat)

/-- R140: every element of CSUM's operand set is in W. -/
def State.csumPresent (s : State) : Bool := s.lenWritten && s.payloadWritten

/-- R140: every element of ENC_DS2's and XACT_DS2's operand set is in W; with REQ_LEN > 252 it is REQ_LEN alone. -/
def State.ds2Present (s : State) : Bool :=
  s.lenWritten && (s.tooLong || (s.targetWritten && s.payloadWritten))

/-- R140: every element of ENC_KWP's and XACT_KWP's operand set is in W. -/
def State.kwpPresent (s : State) : Bool :=
  s.lenWritten && s.targetWritten && s.sourceWritten && s.payloadWritten

/-- R140, R203: whether the operand set of a command is in W. DEC_* and the reserved codes have no operands. -/
def State.operandsPresent (s : State) : Instr → Bool
  | .csum => s.csumPresent
  | .encDs2 => s.ds2Present
  | .encKwp => s.kwpPresent
  | .decDs2 => true
  | .decKwp => true
  | .xactDs2 => s.ds2Present
  | .xactKwp => s.kwpPresent
  | .illegal _ => true
  | .hwr _ _ => true
  | .hrd _ => true

/-- Command accept (R140), shared by every command. While BUSY the CMD write is `fault HOST_BUSY` (R56). Otherwise
CMD <- c; with an operand missing from W it is `fault UNINIT` and nothing else happens; and else the outcome
registers are cleared and the command's accept part `body` runs, all in one step. -/
def State.accept (c : Byte) (present : State → Bool) (body : State → State) (s : State) : State :=
  if s.busy then s.markFault .hostBusy
  else if present s then body ({ s with cmd := c } : State).clearOutcome
  else ({ s with cmd := c } : State).markFault .uninit

/-! ## Host-visible locations -/

/-- Whether the Host may write a location (R21, R55): CMD, the request registers and REQ_PAYLOAD. -/
def locWritable : Sys2Proof.Loc → Bool
  | .reg .cmd => true
  | .reg .reqTarget => true
  | .reg .reqSource => true
  | .reg .reqLen => true
  | .reg .state => false
  | .reg .result => false
  | .reg .detail => false
  | .reg .statusClass => false
  | .reg .statusRaw => false
  | .reg .csumOut => false
  | .reg .txLen => false
  | .reg .rxCount => false
  | .reg .echoCount => false
  | .reg .payOff => false
  | .reg .payLen => false
  | .reqPayload _ => true
  | .txFrame _ => false
  | .rxFrame _ => false

/-- A register's value as a host data word (R50): an 8-bit register zero-extended, a 16-bit register whole. -/
def State.readReg (s : State) : RegName → Half
  | .cmd => zext16 s.cmd
  | .state => zext16 s.phase.code
  | .result => zext16 s.result.code
  | .detail => zext16 (detailCode s.detail)
  | .statusClass => zext16 s.statusClass.code
  | .statusRaw => zext16 s.statusRaw
  | .csumOut => zext16 s.csumOut
  | .reqTarget => zext16 s.reqTarget
  | .reqSource => zext16 s.reqSource
  | .reqLen => zext16 s.reqLen
  | .txLen => s.txLen
  | .rxCount => s.rxCount
  | .echoCount => s.echoCount
  | .payOff => s.payOff
  | .payLen => s.payLen

/-- Why reading a location is a model fault: UNINIT for a request register or payload byte outside W (R59), STALE
for a frame byte at or past the frame's count (R60). -/
def State.readFault (s : State) : Sys2Proof.Loc → Option ModelFault
  | .reg .reqTarget => if s.targetWritten then none else some .uninit
  | .reg .reqSource => if s.sourceWritten then none else some .uninit
  | .reg .reqLen => if s.lenWritten then none else some .uninit
  | .reg _ => none
  | .reqPayload i => if s.written.has (reqBase + i) then none else some .uninit
  | .txFrame i => if i.val < s.txLen.toNat then none else some .stale
  | .rxFrame i => if i.val < s.rxCount.toNat then none else some .stale

/-- The value at a location (R50). -/
def State.readLoc (s : State) : Sys2Proof.Loc → Half
  | .reg r => s.readReg r
  | .reqPayload i => zext16 (s.mem.read (reqBase + i))
  | .txFrame i => zext16 (s.txByte i)
  | .rxFrame i => zext16 (s.rxByte i)

/-- REQ_TARGET <- b, and it joins W (R51). -/
def State.setReqTarget (b : Byte) (s : State) : State :=
  { s with reqTarget := b, written := s.written.insert RegName.reqTarget.addr }

/-- REQ_SOURCE <- b, and it joins W (R51). -/
def State.setReqSource (b : Byte) (s : State) : State :=
  { s with reqSource := b, written := s.written.insert RegName.reqSource.addr }

/-- REQ_LEN <- b, and it joins W (R51). -/
def State.setReqLen (b : Byte) (s : State) : State :=
  { s with reqLen := b, written := s.written.insert RegName.reqLen.addr }

/-- REQ_PAYLOAD[i] <- b, and it joins W (R51). -/
def State.setReqPayload (i : Nat) (b : Byte) (s : State) : State :=
  { s with mem := s.mem.write (reqBase + i) b, written := s.written.insert (reqBase + i) }

end Sys2Proof.Machine
end

