-- ==== Sys2Proof/Machine/Checksum.lean ====
section
/-! DEFINITION. The checksum unit (spec/40_checksum.md): CSUM. -/

namespace Sys2Proof.Machine

/-- The body of CSUM (R92). -/
def State.csumBody (s : State) : State :=
  ({ s with csumOut := xorFold s.payload } : State).complete

/-- CSUM, CODE 0x01 (R92): it ends in the step that accepts it. -/
def execCsum (s : State) : Host.Outcome State Fault Refusal :=
  .next (s.accept 0x01 State.csumPresent State.csumBody)

end Sys2Proof.Machine
end

