-- ==== Sys2Proof/Machine/Ds2.lean ====
section
/-! DEFINITION. The DS2 frame codec (spec/41_ds2_codec.md): ENC_DS2, DEC_DS2 and the decoder step they share with
XACT_DS2. -/

namespace Sys2Proof.Machine

/-- EncodeDS2(a, p) (R101, R74, R75), for len(p) ≤ 252. -/
def encodeDs2 (a : Byte) (p : List Byte) : List Byte :=
  let h := a :: BitVec.ofNat 8 (p.length + 3) :: p
  h ++ [xorFold h]

/-- The request frame of ENC_DS2 and XACT_DS2 (R100, R141). -/
def State.ds2Request (s : State) : List Byte := encodeDs2 s.reqTarget s.payload

/-- PAYLOAD_TOO_LONG (R100, R141): TX_LEN <- 0, and the failure. -/
def State.raiseTooLong (s : State) : State :=
  ({ s with txLen := 0 } : State).raise .payloadTooLong

/-- The body of ENC_DS2 (R100). -/
def State.encDs2Body (s : State) : State :=
  if s.tooLong then s.raiseTooLong else (s.storeTx s.ds2Request).complete

/-- ENC_DS2, CODE 0x02 (R100): it ends in the step that accepts it. -/
def execEncDs2 (s : State) : Host.Outcome State Fault Refusal :=
  .next (s.accept 0x02 State.ds2Present State.encDs2Body)

/-- What DecStepDS2 does with a byte (R103): it is stored; as byte 1 it is the length, refused below 3 (R106);
then the frame may be at its end (R108). -/
def State.ds2Byte (r : Byte) (s : State) : Option Verdict × State :=
  let t := s.storeRx r
  if s.rxCount = 1 then
    if r.toNat < 3 then (some .badLength, t)
    else ((t.setNeed (zext16 r)).frameEnd, t.setNeed (zext16 r))
  else (t.frameEnd, t)

/-- The verdict of a TIMEOUT (R104, R105, R125): NO_REPLY before the frame's first byte, INCOMPLETE_FRAME after
it. -/
def State.timeoutVerdict (s : State) : Verdict :=
  if s.rxCount = 0 then .noReply else .incompleteFrame

/-- DecStepDS2() (R103): exactly one RxRead. The first component is the verdict, `none` for CONTINUE. -/
def State.decStepDs2 (s : State) : Option Verdict × State :=
  match s.rxAnswer with
  | .timeout => (some s.timeoutVerdict, s.rxConsume)
  | .byte r => s.rxConsume.ds2Byte r

/-- The accept part of DEC_DS2 and DEC_KWP (R102, R122). -/
def State.beginDecode (s : State) : State := { s.decBegin with phase := .decoding }

/-- DEC_DS2, CODE 0x04 (R102), at its accept; the Engine steps of R102 follow as the machine's steps
(`State.decDs2Finish`, `engineStep`). -/
def execDecDs2 (s : State) : Host.Outcome State Fault Refusal :=
  .next (s.accept 0x04 (fun _ => true) State.beginDecode)

/-- How DEC_DS2 ends (R102, R109). -/
def State.decDs2Finish (v : Verdict) (s : State) : State :=
  match v with
  | .ok =>
    ({ s with detail := some .ok, payOff := 2, payLen := zext16 (s.rxByte 1) - 3 } : State).complete
  | v => ({ s with detail := some v } : State).raise v.result

end Sys2Proof.Machine
end

