-- ==== Sys2Proof/Machine/Kwp.lean ====
section
/-! DEFINITION. The KWP2000 frame codec (spec/42_kwp_codec.md): ENC_KWP, DEC_KWP and the decoder step they share
with XACT_KWP. -/

namespace Sys2Proof.Machine

/-- EncodeKWP(t, s, p) (R121, R77, R78), for len(p) ≤ 255. -/
def encodeKwp (t src : Byte) (p : List Byte) : List Byte :=
  let h := Config.kwpHeader :: t :: src :: BitVec.ofNat 8 p.length :: p
  h ++ [xorFold h]

/-- The request frame of ENC_KWP and XACT_KWP (R120, R142). -/
def State.kwpRequest (s : State) : List Byte := encodeKwp s.reqTarget s.reqSource s.payload

/-- The body of ENC_KWP (R120). -/
def State.encKwpBody (s : State) : State := (s.storeTx s.kwpRequest).complete

/-- ENC_KWP, CODE 0x03 (R120): it ends in the step that accepts it. -/
def execEncKwp (s : State) : Host.Outcome State Fault Refusal :=
  .next (s.accept 0x03 State.kwpPresent State.encKwpBody)

/-- What DecStepKWP does with a byte (R123): it is stored; as byte 0 it is the header, which must be 0xB8 (R124); as
byte 3 it gives the length; then the frame may be at its end (R126). -/
def State.kwpByte (r : Byte) (s : State) : Option Verdict × State :=
  let t := s.storeRx r
  if s.rxCount = 0 ∧ r ≠ Config.kwpHeader then (some .unexpectedHeader, t)
  else if s.rxCount = 3 then ((t.setNeed (zext16 r + 5)).frameEnd, t.setNeed (zext16 r + 5))
  else (t.frameEnd, t)

/-- DecStepKWP() (R123): exactly one RxRead. The first component is the verdict, `none` for CONTINUE. -/
def State.decStepKwp (s : State) : Option Verdict × State :=
  match s.rxAnswer with
  | .timeout => (some s.timeoutVerdict, s.rxConsume)
  | .byte r => s.rxConsume.kwpByte r

/-- DEC_KWP, CODE 0x05 (R122), at its accept; the Engine steps of R122 follow as the machine's steps
(`State.decKwpFinish`, `engineStep`). -/
def execDecKwp (s : State) : Host.Outcome State Fault Refusal :=
  .next (s.accept 0x05 (fun _ => true) State.beginDecode)

/-- How DEC_KWP ends (R122, R127). -/
def State.decKwpFinish (v : Verdict) (s : State) : State :=
  match v with
  | .ok => ({ s with detail := some .ok, payOff := 4, payLen := zext16 (s.rxByte 3) } : State).complete
  | v => ({ s with detail := some v } : State).raise v.result

end Sys2Proof.Machine
end

