-- ==== Sys2Proof/Machine/Transaction.lean ====
section
/-! DEFINITION. The transactions (spec/43_transaction.md): XACT_DS2, XACT_KWP, the echo and the reply. -/

namespace Sys2Proof.Machine

/-- What XACT_* does at accept with its request frame (R141, R142): it is stored, transmitted, and the echo is
awaited. -/
def State.transmit (f : List Byte) (s : State) : State :=
  { (({ (s.storeTx f).txWrite f with echoCount := 0 } : State).decBegin) with phase := .awaitingEcho }

/-- The accept part of XACT_DS2 (R141). -/
def State.xactDs2Body (s : State) : State :=
  if s.tooLong then s.raiseTooLong else s.transmit s.ds2Request

/-- XACT_DS2, CODE 0x06 (R141), at its accept; the Engine steps of R143 and R147 follow as the machine's steps
(`State.echoFinish`, `State.replyDs2Finish`, `engineStep`). -/
def execXactDs2 (s : State) : Host.Outcome State Fault Refusal :=
  .next (s.accept 0x06 State.ds2Present State.xactDs2Body)

/-- The accept part of XACT_KWP (R142). -/
def State.xactKwpBody (s : State) : State := s.transmit s.kwpRequest

/-- XACT_KWP, CODE 0x07 (R142), at its accept; the Engine steps of R143 and R147 follow as the machine's steps
(`State.echoFinish`, `State.replyKwpFinish`, `engineStep`). -/
def execXactKwp (s : State) : Host.Outcome State Fault Refusal :=
  .next (s.accept 0x07 State.kwpPresent State.xactKwpBody)

/-- How the echo phase ends (R143, R145, R146): a framed echo is discarded uncompared (R144), every other verdict
is BUS_ERROR. -/
def State.echoFinish (v : Verdict) (s : State) : State :=
  match v with
  | .ok =>
    { ({ s with detail := some .ok, echoCount := s.rxCount } : State).decBegin with phase := .awaitingReply }
  | v => ({ s with detail := some v, echoCount := s.rxCount } : State).raise .busError

/-- ReplyFailure(v) (R148). -/
def replyFailure : Verdict → ResultCode
  | .ok => .ok
  | .noReply => .addressUnreachable
  | .incompleteFrame => .incompleteFrame
  | .badLength => .badLength
  | .checksumError => .checksumError
  | .unexpectedHeader => .protocolError

/-- Classify(s) (R151). -/
def classify (s : Byte) : StatusClass :=
  if s = 0xA0 then .ok
  else if s = 0xA1 then .computerBusy
  else if s = 0xA2 then .invalidParameter
  else if s = 0xFF then .invalidCommand
  else .unknownStatus

/-- ReplyDS2() (R149 to R153): the sender, then the presence of a status byte, then its class. -/
def State.replyDs2 (s : State) : State :=
  if s.rxByte 0 ≠ s.txByte 0 then s.raise .protocolError
  else if s.rxByte 1 = 3 then s.raise .insufficientPayload
  else
    let t : State := { s with statusRaw := s.rxByte 2, statusClass := classify (s.rxByte 2) }
    if classify (s.rxByte 2) ≠ .ok then t.raise .deviceStatusError
    else ({ t with payOff := 3, payLen := zext16 (s.rxByte 1) - 4 } : State).complete

/-- ReplyKWP() (R154, R155): any framed reply is a success. -/
def State.replyKwp (s : State) : State :=
  ({ s with payOff := 4, payLen := zext16 (s.rxByte 3) } : State).complete

/-- How XACT_DS2's reply phase ends (R147). -/
def State.replyDs2Finish (v : Verdict) (s : State) : State :=
  match v with
  | .ok => ({ s with detail := some .ok } : State).replyDs2
  | v => ({ s with detail := some v } : State).raise (replyFailure v)

/-- How XACT_KWP's reply phase ends (R147). -/
def State.replyKwpFinish (v : Verdict) (s : State) : State :=
  match v with
  | .ok => ({ s with detail := some .ok } : State).replyKwp
  | v => ({ s with detail := some v } : State).raise (replyFailure v)

end Sys2Proof.Machine
end

