-- ==== Sys2Proof/Machine/HostAccess.lean ====
section
/-! DEFINITION. The Host's accesses (spec/20_memory.md R50, R51): HWR and HRD, and the reserved command codes
(R72). -/

namespace Sys2Proof.Machine

/-- The reserved command codes (R72): accepted, CMD <- code, and the command fails at once with ILLEGAL_COMMAND
(R140). Its operand is a reserved code (`Instr.wf`). -/
def execIllegal (code : Byte) (s : State) : Host.Outcome State Fault Refusal :=
  .next (s.accept code (fun _ => true) (State.raise .illegalCommand))

/-- An accepted write of CMD (R22, R140): the command its code selects (R71), or a reserved code (R72). -/
def execCommandCode (code : Byte) (s : State) : Host.Outcome State Fault Refusal :=
  match commandOf code with
  | some .csum => execCsum s
  | some .encDs2 => execEncDs2 s
  | some .encKwp => execEncKwp s
  | some .decDs2 => execDecDs2 s
  | some .decKwp => execDecKwp s
  | some .xactDs2 => execXactDs2 s
  | some .xactKwp => execXactKwp s
  | none => execIllegal code s

/-- Check 5 of R51: the write happens. A location the Host may not write is left alone (checks 1 and 2 stop those
writes before). -/
def performWrite (l : Sys2Proof.Loc) (b : Byte) (s : State) : Host.Outcome State Fault Refusal :=
  match l with
  | .reg .cmd => execCommandCode b s
  | .reg .reqTarget => .next (s.setReqTarget b)
  | .reg .reqSource => .next (s.setReqSource b)
  | .reg .reqLen => .next (s.setReqLen b)
  | .reqPayload i => .next (s.setReqPayload i b)
  | .reg _ => .next s
  | .txFrame _ => .next s
  | .rxFrame _ => .next s

/-- HostWrite(addr, d) (R51): the checks in R51's order, and then the write. -/
def execHwr (addr : HostAddr) (d : Half) (s : State) : Host.Outcome State Fault Refusal :=
  match locOf addr with
  | none => .next (s.markFault .reserved)
  | some l =>
    if !locWritable l then .next (s.markFault .readOnly)
    else if highByte d ≠ 0 then .next (s.markFault .badWrite)
    else if s.busy then .next (s.markFault .hostBusy)
    else performWrite l (lowByte d) s

/-- What HostRead(addr) returns (R50), or the model fault it is (R54, R59, R60). -/
def State.hostRead (s : State) (addr : HostAddr) : Except ModelFault Half :=
  match locOf addr with
  | none => .error .reserved
  | some l =>
    match s.readFault l with
    | some f => .error f
    | none => .ok (s.readLoc l)

/-- HostRead(addr) (R50): the Host gets the value, or after a model fault no value (R183). KCODEC's state does not
change (R57). -/
def execHrd (addr : HostAddr) (s : State) : Host.Outcome State Fault Refusal :=
  match s.hostRead addr with
  | .ok d => .next { s with hostData := some d }
  | .error f => .next (({ s with hostData := none } : State).markFault f)

end Sys2Proof.Machine
end

