-- ==== Sys2Proof/Machine/Dispatch.lean ====
section
/-! DEFINITION. The meaning of each instruction, one arm a constructor. -/

namespace Sys2Proof.Machine

def exec (i : Instr) (s : State) : Host.Outcome State Fault Refusal :=
  match i with
  | .csum => Sys2Proof.Machine.execCsum s
  | .encDs2 => Sys2Proof.Machine.execEncDs2 s
  | .encKwp => Sys2Proof.Machine.execEncKwp s
  | .decDs2 => Sys2Proof.Machine.execDecDs2 s
  | .decKwp => Sys2Proof.Machine.execDecKwp s
  | .xactDs2 => Sys2Proof.Machine.execXactDs2 s
  | .xactKwp => Sys2Proof.Machine.execXactKwp s
  | .illegal code => Sys2Proof.Machine.execIllegal code s
  | .hwr addr data => Sys2Proof.Machine.execHwr addr data s
  | .hrd addr => Sys2Proof.Machine.execHrd addr s

end Sys2Proof.Machine
end

