-- ==== Sys2Proof/Machine/Engine.lean ====
section
/-! DEFINITION. The Engine's step (spec/43_transaction.md R143, R147; spec/41_ds2_codec.md R102;
spec/42_kwp_codec.md R122): one RxRead through the protocol's decoder, and the end of the phase when it gives a
verdict. -/

namespace Sys2Proof.Machine

/-- One Engine step of a phase: the decoder's step, and `finish` when it gives a verdict. -/
def phaseStep (dec : Option Verdict × State) (finish : Verdict → State → State) : State :=
  match dec.1 with
  | none => dec.2
  | some v => finish v dec.2

/-- The Engine's step while BUSY. A CMD code that no rule runs in the phase, or a full RX_FRAME, has no rule: these
faults are for states that no run reaches. -/
def engineStep (s : State) : Host.Outcome State Fault Refusal :=
  if Config.frameBufSize ≤ s.rxCount.toNat then .fault .rxFrameOverrun
  else
    match s.phase with
    | .decoding =>
      match commandOf s.cmd with
      | some .decDs2 => .next (phaseStep s.decStepDs2 State.decDs2Finish)
      | some .decKwp => .next (phaseStep s.decStepKwp State.decKwpFinish)
      | _ => .fault .engineNoRule
    | .awaitingEcho =>
      match commandOf s.cmd with
      | some .xactDs2 => .next (phaseStep s.decStepDs2 State.echoFinish)
      | some .xactKwp => .next (phaseStep s.decStepKwp State.echoFinish)
      | _ => .fault .engineNoRule
    | .awaitingReply =>
      match commandOf s.cmd with
      | some .xactDs2 => .next (phaseStep s.decStepDs2 State.replyDs2Finish)
      | some .xactKwp => .next (phaseStep s.decStepKwp State.replyKwpFinish)
      | _ => .fault .engineNoRule
    | .idle => .next s
    | .complete => .next s
    | .failed => .next s

/-- The Engine's place in the order (R68): a step while BUSY, and no step in IDLE, COMPLETE or FAILED (R143,
R202). -/
def engineTurn (s : State) : Host.Outcome State Fault Refusal :=
  if s.busy then engineStep s else .next s

end Sys2Proof.Machine
end

