-- ==== Sys2Proof/Machine/Fetch.lean ====
section
/-! DEFINITION. Whose place the next one of the order is (R68), and what the Host's program does there (R73,
R84). -/

namespace Sys2Proof.Machine

/-- Whose the next place of the order is: the schedule's, or past its end the free value `Config.turn`. -/
def State.nextTurn (s : State) : Turn :=
  match s.schedule with
  | [] => Config.turn s.turnsTaken
  | t :: _ => t

/-- The state with that place taken. -/
def State.takeTurn (s : State) : State :=
  { s with schedule := s.schedule.tail, turnsTaken := s.turnsTaken + 1 }

/-- R73: a word decodes; `poll` is no word. -/
def stmtOk : HostStmt → Bool
  | .word w => (decode w).isOk
  | .poll => true

/-- R73: a program with no malformed word. -/
def programOk (p : List HostStmt) : Bool := p.all stmtOk

/-- What the Host does at its place. -/
inductive HostAction where
  /-- Its program is at its end. -/
  | nothing
  /-- Its program holds a malformed word. -/
  | malformed
  /-- One access or command. -/
  | run (i : Instr)
  /-- One round of `poll`. -/
  | poll
  deriving DecidableEq, Repr

/-- What the Host does at its place: its program's next statement, decoded; a program with a malformed word is
refused before it runs (R73). -/
def State.hostAction (s : State) : HostAction :=
  if programOk s.program then
    match s.program with
    | [] => .nothing
    | .poll :: _ => .poll
    | .word w :: _ =>
      match decode w with
      | .ok i => .run i
      | .error _ => .malformed
  else .malformed

/-- The state with the program's next statement taken. -/
def State.popProgram (s : State) : State := { s with program := s.program.tail }

/-- `poll` (R84) after its `rd STATE`: it is left once the value read is 0x04 or 0x05. -/
def State.afterPoll (s : State) : State :=
  if s.hostData = some 0x0004 ∨ s.hostData = some 0x0005 then s.popProgram else s

end Sys2Proof.Machine
end

