-- ==== Sys2Proof/Machine/Step.lean ====
section
/-! DEFINITION. One step of the machine: one place of the single order of R68. -/

namespace Sys2Proof.Machine

/-- The Host's place: its program's next statement (R73), one round of `poll` (R84), or nothing. -/
def hostTurn (s : State) : Host.Outcome State Fault Refusal :=
  match s.hostAction with
  | .nothing => .next s
  | .malformed => .refused .malformedProgram
  | .run i => exec i s.popProgram
  | .poll =>
    match exec (.hrd 0x001) s with
    | .next t => .next t.afterPoll
    | .fault f => .fault f
    | .refused r => .refused r

/-- One step: the agent whose place it is moves, or the platform resets KCODEC (R200). -/
def step (s : State) : Host.Outcome State Fault Refusal :=
  match s.nextTurn with
  | .host => hostTurn s.takeTurn
  | .engine => engineTurn s.takeTurn
  | .reset => .next s.takeTurn.applyReset

/-- The state with a table row's word as the Host's program, and the Host's place next
(notes/assumptions/4.md). -/
def State.withFetchWord (s : State) (nbits w : Nat) : State :=
  { s with
    program := match tableWord nbits w with
      | some fw => [.word fw]
      | none => []
    schedule := .host :: s.schedule }

end Sys2Proof.Machine
end

