-- ==== Sys2Proof/Safety.lean ====
section
/-! DEFINITION. What counts as a good state and a good end, in the terms the statements use: the invariant of
every reachable state, the good end of a command, which states a Host cannot tell apart, two runs of one command, and
the fairness that termination needs. -/

namespace Sys2Proof.Machine

/-- R20, R21: the addresses of the three buffers. -/
def inBuffer (a : Nat) : Bool :=
  (decide (0x100 ≤ a) && decide (a ≤ 0x1FE)) || (decide (0x200 ≤ a) && decide (a ≤ 0x303))
    || (decide (0x400 ≤ a) && decide (a ≤ 0x503))

/-- R45: the addresses of the elements W may hold. -/
def requestAddr (a : Nat) : Bool :=
  (decide (0x008 ≤ a) && decide (a ≤ 0x00A)) || (decide (0x100 ≤ a) && decide (a ≤ 0x1FE))

/-- Whether STATE, RESULT and DETAIL fit together (R23, R24, R25, R171): NONE until a command ends, OK exactly at
COMPLETE, and no verdict before a frame decode has finished. -/
def State.outcomeFits (s : State) : Prop :=
  match s.phase with
  | .idle => s.result = .none ∧ s.detail = none
  | .decoding => s.result = .none ∧ s.detail = none
  | .awaitingEcho => s.result = .none ∧ s.detail = none
  | .awaitingReply => s.result = .none ∧ s.detail = some .ok
  | .complete => s.result = .ok ∧ (s.detail = none ∨ s.detail = some .ok)
  | .failed => s.result ≠ .none ∧ s.result ≠ .ok

/-- What a failed command records, by its RESULT (R172). -/
def State.failureFits (s : State) : Prop :=
  s.phase = .failed →
    match s.result with
    | .none => False
    | .ok => False
    | .noReply => s.detail = some .noReply ∧ s.rxCount = 0
    | .incompleteFrame => s.detail = some .incompleteFrame ∧ 1 ≤ s.rxCount.toNat
    | .badLength => s.detail = some .badLength ∧ s.rxCount = 2 ∧ (s.rxByte 1).toNat < 3
    | .checksumError => s.detail = some .checksumError ∧ 3 ≤ s.rxCount.toNat ∧ s.decAcc ≠ 0x00
    | .unexpectedHeader =>
      s.detail = some .unexpectedHeader ∧ s.rxCount = 1 ∧ s.rxByte 0 ≠ Config.kwpHeader
    | .busError => (∃ v, v ≠ .ok ∧ s.detail = some v) ∧ s.echoCount = s.rxCount
    | .addressUnreachable => s.detail = some .noReply ∧ s.rxCount = 0
    | .protocolError => s.detail = some .ok ∨ (s.detail = some .unexpectedHeader ∧ s.rxCount = 1)
    | .deviceStatusError => s.detail = some .ok ∧ 4 ≤ s.rxCount.toNat
    | .insufficientPayload => s.detail = some .ok ∧ s.rxCount = 3
    | .payloadTooLong => s.detail = none ∧ s.txLen = 0
    | .illegalCommand => s.detail = none

/-- Whether CMD's code is one that runs in the present phase (R23). -/
def State.commandFits (s : State) : Prop :=
  match s.phase with
  | .decoding => s.cmd = 0x04 ∨ s.cmd = 0x05
  | .awaitingEcho => s.cmd = 0x06 ∨ s.cmd = 0x07
  | .awaitingReply => s.cmd = 0x06 ∨ s.cmd = 0x07
  | .idle => True
  | .complete => True
  | .failed => True

/-- How far a DS2 decode is (R38, R103): DEC_NEED is 0 until byte 1 has arrived, and then that byte, at least 3
and above RX_COUNT. -/
def State.ds2Progress (s : State) : Prop :=
  (s.rxCount.toNat < 2 → s.decNeed = 0) ∧
  (2 ≤ s.rxCount.toNat →
    s.decNeed = zext16 (s.rxByte 1) ∧ 3 ≤ s.decNeed.toNat ∧ s.rxCount.toNat < s.decNeed.toNat)

/-- How far a KWP2000 decode is (R38, R123): byte 0 is the header, and DEC_NEED is 0 until byte 3 has arrived and
then that byte + 5, above RX_COUNT. -/
def State.kwpProgress (s : State) : Prop :=
  (1 ≤ s.rxCount.toNat → s.rxByte 0 = Config.kwpHeader) ∧
  (s.rxCount.toNat < 4 → s.decNeed = 0) ∧
  (4 ≤ s.rxCount.toNat → s.decNeed = zext16 (s.rxByte 3) + 5 ∧ s.rxCount.toNat < s.decNeed.toNat)

/-- R36: PAY_OFF and PAY_LEN are 0 unless a command ended in COMPLETE after a decode; then the payload window ends
just before the frame's checksum byte. -/
def State.windowFits (s : State) : Prop :=
  (s.payOff = 0 ∧ s.payLen = 0) ∨
  (s.phase = .complete ∧ s.detail = some .ok ∧
    (s.payOff = 2 ∨ s.payOff = 3 ∨ s.payOff = 4) ∧ s.payLen.toNat ≤ 255 ∧
    s.payOff.toNat + s.payLen.toNat + 1 = s.rxCount.toNat)

/-- STATUS_CLASS and STATUS_RAW (R26, R27, R151, R152): nothing is classified while a command runs, the raw byte is 0
without a class, a class is its raw byte's, and DEVICE_STATUS_ERROR is the result exactly for a class other than
OK. -/
def State.statusFits (s : State) : Prop :=
  (s.busy = true → s.statusClass = .none) ∧
  (s.statusClass = .none → s.statusRaw = 0x00) ∧
  (s.statusClass ≠ .none → s.statusClass = classify s.statusRaw) ∧
  (s.result = .deviceStatusError ↔ s.statusClass ≠ .none ∧ s.statusClass ≠ .ok)

/-- R33, R61, R141, R149: while a transaction waits, TX_FRAME[0 : TX_LEN] is the last entry of TXLOG, and for DS2 its
first byte is REQ_TARGET. -/
def State.requestSent (s : State) : Prop :=
  s.phase = .awaitingEcho ∨ s.phase = .awaitingReply →
    3 ≤ s.txLen.toNat ∧ s.txLog.getLast? = some s.txFrame ∧ (s.cmd = 0x06 → s.txByte 0 = s.reqTarget)

/-- The invariant of every state a run from reset reaches. -/
structure State.Inv (s : State) : Prop where
  /-- The buffers are in canonical form. -/
  memWf : s.mem.wf = true
  /-- There is no data memory beyond the buffers (R20). -/
  memInBuffer : ∀ c ∈ s.mem, inBuffer c.1 = true
  /-- W is in canonical form. -/
  writtenWf : s.written.wf = true
  /-- W holds request locations only (R45). -/
  writtenRequest : ∀ a ∈ s.written, requestAddr a = true
  /-- TX_LEN's values are 0..260 (R21). -/
  txLenLe : s.txLen.toNat ≤ 260
  /-- RX_COUNT's values are 0..260 (R21). -/
  rxCountLe : s.rxCount.toNat ≤ 260
  /-- ECHO_COUNT's values are 0..260 (R21). -/
  echoCountLe : s.echoCount.toNat ≤ 260
  /-- The payload window (R36). -/
  window : s.windowFits
  /-- STATE, RESULT and DETAIL (R23 to R25). -/
  outcome : s.outcomeFits
  /-- What a failure records (R172). -/
  failure : s.failureFits
  /-- CMD while BUSY (R40). -/
  command : s.commandFits
  /-- The DS2 status registers (R26, R27). -/
  status : s.statusFits
  /-- DEC_ACC is the XOR of RX_FRAME[0 : RX_COUNT] (R39). -/
  accFold : s.decAcc = xorFold s.rxFrame
  /-- A running DS2 decode (R103). -/
  ds2 : s.busy = true → s.cmd = 0x04 ∨ s.cmd = 0x06 → s.ds2Progress
  /-- A running KWP2000 decode (R123). -/
  kwp : s.busy = true → s.cmd = 0x05 ∨ s.cmd = 0x07 → s.kwpProgress
  /-- A transaction's request (R33, R149). -/
  sent : s.requestSent

/-- A good end (R10, R183): the command has ended and no model fault is recorded. -/
def State.goodEnd (s : State) : Prop := s.done = true ∧ s.faultMark = none

/-- The Line returns exactly `bs` and then `rest` (R62). -/
def State.lineGives (s : State) (bs : List Byte) (rest : List RxAnswer) : Prop :=
  s.rx = bs.map RxAnswer.byte ++ rest

/-- ECHO_FAITHFUL (R65), a premise and no rule of KCODEC: what the Line returns after TxWrite(f) begins with
exactly f. -/
def State.echoFaithful (s : State) (f : List Byte) : Prop := ∃ rest, s.lineGives f rest

/-- Two states that differ at most in what nobody may read: request registers and payload bytes outside W (R59),
frame bytes at or past the frame's count (R60). -/
def State.agreesReadable (s t : State) : Prop :=
  t = { s with reqTarget := t.reqTarget, reqSource := t.reqSource, reqLen := t.reqLen, mem := t.mem } ∧
  (s.targetWritten = true → t.reqTarget = s.reqTarget) ∧
  (s.sourceWritten = true → t.reqSource = s.reqSource) ∧
  (s.lenWritten = true → t.reqLen = s.reqLen) ∧
  (∀ i, i < 255 → s.written.has (reqBase + i) = true → t.mem.read (reqBase + i) = s.mem.read (reqBase + i)) ∧
  (∀ i, i < s.txLen.toNat → t.txByte i = s.txByte i) ∧
  (∀ i, i < s.rxCount.toNat → t.rxByte i = s.rxByte i)

/-- Two states with the same request and the same Line (R157): what a command's results depend on. -/
def State.sameRequest (s t : State) : Prop :=
  t.reqTarget = s.reqTarget ∧ t.reqSource = s.reqSource ∧ t.reqLen = s.reqLen ∧ t.written = s.written ∧
  (∀ i, i < 255 → t.mem.read (reqBase + i) = s.mem.read (reqBase + i)) ∧
  t.rx = s.rx ∧ t.rxTaken = s.rxTaken

/-- Two states with the same encoded frame: TX_LEN and TX_FRAME[0 : TX_LEN] (R33). -/
def State.sameTxFrame (s t : State) : Prop :=
  t.txLen = s.txLen ∧ ∀ i, i < s.txLen.toNat → t.txByte i = s.txByte i

/-- Two states with the same received bytes: RX_COUNT and RX_FRAME[0 : RX_COUNT] (R34). -/
def State.sameRxFrame (s t : State) : Prop :=
  t.rxCount = s.rxCount ∧ ∀ i, i < s.rxCount.toNat → t.rxByte i = s.rxByte i

/-- Two states at the same point of the same command, whatever came before it (R157): they agree in everything the
command has written so far and in everything it reads. What it does not write may differ (R209). -/
structure State.sameCommand (s t : State) : Prop where
  /-- The request and the Line. -/
  request : s.sameRequest t
  cmd : t.cmd = s.cmd
  phase : t.phase = s.phase
  result : t.result = s.result
  detail : t.detail = s.detail
  statusClass : t.statusClass = s.statusClass
  statusRaw : t.statusRaw = s.statusRaw
  payOff : t.payOff = s.payOff
  payLen : t.payLen = s.payLen
  /-- What CSUM writes (R92). -/
  csum : s.cmd = 0x01 → t.csumOut = s.csumOut
  /-- What ENC_* and XACT_* write at their accept (R100, R120, R141, R142); PAYLOAD_TOO_LONG sets TX_LEN = 0 and
  leaves CSUM_OUT. -/
  tx : s.cmd = 0x02 ∨ s.cmd = 0x03 ∨ s.cmd = 0x06 ∨ s.cmd = 0x07 →
    s.sameTxFrame t ∧ (s.txLen ≠ 0 → t.csumOut = s.csumOut)
  /-- What XACT_* writes and transmits with a request frame (R141 to R146). -/
  echo : s.cmd = 0x06 ∨ s.cmd = 0x07 → s.txLen ≠ 0 →
    t.echoCount = s.echoCount ∧ t.txLog.getLast? = s.txLog.getLast?
  /-- What a decode writes (R103, R123), while it runs and after its verdict. -/
  rx : s.busy = true ∨ s.detail ≠ none → s.sameRxFrame t
  /-- The running decode's hidden registers (R38, R39). -/
  decoder : s.busy = true → t.decNeed = s.decNeed ∧ t.decAcc = s.decAcc

/-! ## The order of steps, and fairness (R68, R210) -/

/-- Whose place number `k` of the order is, counted from the next one. -/
def State.turnAt (s : State) (k : Nat) : Turn :=
  match s.schedule[k]? with
  | some t => t
  | none => Config.turn (s.turnsTaken + k)

/-- How many of the next `k` places are the Engine's. -/
def State.engineTurns (s : State) (k : Nat) : Nat :=
  (List.range k).countP fun j => s.turnAt j == .engine

/-- ENGINE FAIRNESS (R210), a premise and no rule of KCODEC: wherever the run from `s` is BUSY, the Engine's next step
eventually comes. LINE FAIRNESS (R63, R210) needs no premise here: every RxRead of the model returns at once, a byte
or TIMEOUT (`State.rxAnswer`). -/
def State.engineFair (s : State) : Prop :=
  ∀ k t, Host.Core.run core k s = .next t → t.busy = true → ∃ j, t.turnAt j = .engine

end Sys2Proof.Machine
end

