-- ==== Sys2Proof/Certificates/Slice0/Obligations.lean ====
section
/-! DEFINITION. The statements for the provers. Each says which rule of spec/ it formalises. -/

open Sys2Proof Sys2Proof.Machine

/-! ## Reset -/

/-- R46: the state after reset. The unspecified request registers, payload bytes and frame bytes are unreadable
(UNINIT, STALE), so no value of theirs is stated. -/
def Obligations.ResetHoldsListedValues : Prop :=
  State.reset.cmd = 0x00 ∧ State.reset.phase = .idle ∧ State.reset.result = .none ∧
  State.reset.detail = none ∧ State.reset.statusClass = .none ∧ State.reset.statusRaw = 0x00 ∧
  State.reset.csumOut = 0x00 ∧ State.reset.txLen = 0 ∧ State.reset.rxCount = 0 ∧
  State.reset.echoCount = 0 ∧ State.reset.payOff = 0 ∧ State.reset.payLen = 0 ∧
  State.reset.decNeed = 0 ∧ State.reset.decAcc = 0x00 ∧ State.reset.written = [] ∧
  State.reset.faultMark = none ∧
  (∀ r, r = RegName.reqTarget ∨ r = RegName.reqSource ∨ r = RegName.reqLen →
    State.reset.hostRead (Loc.reg r).addr = .error .uninit) ∧
  (∀ i, State.reset.hostRead (Loc.reqPayload i).addr = .error .uninit) ∧
  (∀ i, State.reset.hostRead (Loc.txFrame i).addr = .error .stale) ∧
  (∀ i, State.reset.hostRead (Loc.rxFrame i).addr = .error .stale)

/-- The invariant holds at reset. -/
def Obligations.ResetMeetsStateInvariant : Prop := State.reset.Inv

/-- R200: reset, in any STATE, in one step. The request registers and the buffers become unreadable: W is empty and
TX_LEN = RX_COUNT = 0. -/
def Obligations.ResetEventInAnyState : Prop :=
  ∀ s : State, s.nextTurn = .reset → ∃ t, step s = .next t ∧
    t.cmd = 0x00 ∧ t.phase = .idle ∧ t.result = .none ∧ t.detail = none ∧ t.statusClass = .none ∧
    t.statusRaw = 0x00 ∧ t.csumOut = 0x00 ∧ t.txLen = 0 ∧ t.rxCount = 0 ∧ t.echoCount = 0 ∧
    t.payOff = 0 ∧ t.payLen = 0 ∧ t.decNeed = 0 ∧ t.decAcc = 0x00 ∧ t.written = [] ∧
    t.faultMark = s.faultMark ∧ t.txLog = s.txLog ∧ t.rx = s.rx ∧ t.rxTaken = s.rxTaken

/-! ## Fetching, decoding, encoding -/

/-- R68, R73: at the Host's place a well-formed program's next word is decoded and run, and the rest of the program
is left. -/
def Obligations.StepRunsDecodedInstruction : Prop :=
  ∀ (s : State) (w : FetchWord) (rest : List HostStmt) (i : Instr),
    s.nextTurn = .host → s.program = .word w :: rest → programOk s.program = true → decode w = .ok i →
    step s = exec i { s.takeTurn with program := rest }

/-- R143, R202: at the Engine's place the Engine takes its step while BUSY, and no step otherwise; an empty host
program leaves the Host's place unused. -/
def Obligations.StepGivesOtherTurns : Prop :=
  (∀ s : State, s.nextTurn = .engine → s.busy = true → step s = engineStep s.takeTurn) ∧
  (∀ s : State, s.nextTurn = .engine → s.busy = false → step s = .next s.takeTurn) ∧
  (∀ s : State, s.nextTurn = .host → s.program = [] → step s = .next s.takeTurn)

/-- R84: `poll` is `rd STATE`, repeated until the value read is 0x04 or 0x05. -/
def Obligations.PollRepeatsUntilDone : Prop :=
  ∀ (s : State) (rest : List HostStmt), s.nextTurn = .host → s.program = .poll :: rest →
    programOk rest = true →
    (s.done = true →
      step s = .next { s.takeTurn with hostData := some (zext16 s.phase.code), program := rest }) ∧
    (s.done = false →
      step s = .next { s.takeTurn with hostData := some (zext16 s.phase.code) })

/-- R73: what a HACC32 word means, field by field, which words are malformed, and that a program with a malformed
word is refused. -/
def Obligations.HostAccessWordFields : Prop :=
  (∀ w : BitVec 32, (w >>> 28) &&& 7#32 = 0 → w >>> 31 = 1 →
    ∃ a d, decode (.hacc32 w) = .ok (.hwr a d) ∧ a.toNat = w.toNat / 2 ^ 16 % 2 ^ 12 ∧
      d.toNat = w.toNat % 2 ^ 16) ∧
  (∀ w : BitVec 32, (w >>> 28) &&& 7#32 = 0 → w >>> 31 = 0 → w.toNat % 2 ^ 16 = 0 →
    ∃ a, decode (.hacc32 w) = .ok (.hrd a) ∧ a.toNat = w.toNat / 2 ^ 16 % 2 ^ 12) ∧
  (∀ w : BitVec 32, (w >>> 28) &&& 7#32 ≠ 0 ∨ (w >>> 31 = 0 ∧ w.toNat % 2 ^ 16 ≠ 0) →
    ∀ s : State, s.nextTurn = .host → HostStmt.word (.hacc32 w) ∈ s.program →
      step s = .refused .malformedProgram)

/-- A few words written out from R71, R72, R73 and R83. -/
def Obligations.WrittenOutWordsDecode : Prop :=
  decode (.cmd8 0b00000001#8) = .ok .csum ∧ decode (.cmd8 0b00000110#8) = .ok .xactDs2 ∧
  decode (.cmd8 0b00000000#8) = .ok (.illegal 0x00) ∧ decode (.cmd8 0b00001000#8) = .ok (.illegal 0x08) ∧
  decode (.hacc32 0x80080032#32) = .ok (.hwr 0x008 0x0032) ∧
  decode (.hacc32 0x00010000#32) = .ok (.hrd 0x001)

/-- R70 to R73: decode and encode agree, in both directions, on every instruction and every word. -/
def Obligations.DecodeEncodeAgree : Prop :=
  (∀ i : Instr, i.wf = true → decode (encode i) = .ok i) ∧
  (∀ (w : FetchWord) (i : Instr), decode w = .ok i → encode i = w ∧ i.wf = true)

/-- R20, R21: the address map. Every listed location is found at its address, and exactly the addresses the table
calls reserved name nothing. -/
def Obligations.AddressMapMatchesTable : Prop :=
  (∀ l : Loc, locOf l.addr = some l) ∧
  (∀ a : HostAddr, locOf a = none ↔
    a.toNat = 0x007 ∨ (0x00B ≤ a.toNat ∧ a.toNat ≤ 0x00F) ∨ (0x015 ≤ a.toNat ∧ a.toNat ≤ 0x0FF) ∨
    a.toNat = 0x1FF ∨ (0x304 ≤ a.toNat ∧ a.toNat ≤ 0x3FF) ∨ (0x504 ≤ a.toNat ∧ a.toNat ≤ 0xFFF))

/-- R83, R84: `wr`, `rd`, `cmd` and `ldreq` expand to words that decode to the accesses they name, and every
expansion is a program that is not refused. -/
def Obligations.StatementsExpandToTheirAccesses : Prop :=
  (∀ (l : Loc) (v : Half), (AsmStmt.wr l v).expand = [.word (encode (.hwr l.addr v))]) ∧
  (∀ l : Loc, (AsmStmt.rd l).expand = [.word (encode (.hrd l.addr))]) ∧
  (∀ c : Command, (AsmStmt.cmd c).expand = [.word (encode (.hwr 0x000 (zext16 c.code)))]) ∧
  (∀ (t : Half) (src : Option Half) (p : List Half), p.length ≤ 255 →
    (AsmStmt.ldreq t src p).expand =
      [.word (encode (.hwr 0x008 t))]
        ++ (src.toList.map fun b => .word (encode (.hwr 0x009 b)))
        ++ [.word (encode (.hwr 0x00A (BitVec.ofNat 16 p.length)))]
        ++ (List.range p.length).map fun i =>
            .word (encode (.hwr (BitVec.ofNat 12 (0x100 + i)) (p.getD i 0)))) ∧
  (∀ p : List AsmStmt, programOk (assemble p) = true)

/-! ## The checksum and the frames -/

/-- R91: the laws of checksum. -/
def Obligations.ChecksumLaws : Prop :=
  xorFold [] = 0x00 ∧
  (∀ s t : List Byte, xorFold (s ++ t) = xorFold s ^^^ xorFold t) ∧
  (∀ s t : List Byte, s.Perm t → xorFold s = xorFold t) ∧
  (∀ s : List Byte, xorFold (s ++ [xorFold s]) = 0x00) ∧
  (∀ (s : List Byte) (k : Nat), k < 8 →
    (xorFold s).getLsbD k = ((s.filter fun b => b.getLsbD k).length % 2 == 1))

/-- R93: the two forms of the check agree. -/
def Obligations.ChecksumVerificationForms : Prop :=
  ∀ (f : List Byte) (c : Byte), xorFold f = c ↔ xorFold (f ++ [c]) = 0x00

/-- R101: EncodeDS2, for a payload of at most 252 bytes. -/
def Obligations.EncodeDs2FrameShape : Prop :=
  ∀ (a : Byte) (p : List Byte), p.length ≤ 252 →
    (encodeDs2 a p).length = p.length + 3 ∧
    (encodeDs2 a p)[0]? = some a ∧
    ((encodeDs2 a p)[1]?.map BitVec.toNat) = some (encodeDs2 a p).length ∧
    ((encodeDs2 a p).drop 2).dropLast = p ∧
    (encodeDs2 a p).getLast? = some (xorFold (encodeDs2 a p).dropLast)

/-- R121: EncodeKWP, for a payload of at most 255 bytes. -/
def Obligations.EncodeKwpFrameShape : Prop :=
  ∀ (t src : Byte) (p : List Byte), p.length ≤ 255 →
    (encodeKwp t src p).length = p.length + 5 ∧
    (encodeKwp t src p)[0]? = some 0xB8 ∧ (encodeKwp t src p)[1]? = some t ∧
    (encodeKwp t src p)[2]? = some src ∧
    ((encodeKwp t src p)[3]?.map BitVec.toNat) = some p.length ∧
    ((encodeKwp t src p).drop 4).dropLast = p ∧
    (encodeKwp t src p).getLast? = some (xorFold (encodeKwp t src p).dropLast)

/-! ## The commands, at their accept -/

/-- R92: CSUM, and everything it leaves unchanged. -/
def Obligations.CsumResultAndFrame : Prop :=
  decode (.cmd8 0x01) = .ok .csum ∧ ∀ s : State, s.busy = false →
    (s.written.has 0x00A = true ∧ (∀ i, i < s.reqLen.toNat → s.written.has (0x100 + i) = true) →
      exec .csum s = .next { s with
        cmd := 0x01, phase := .complete, result := .ok, detail := none, statusClass := .none,
        statusRaw := 0x00, payOff := 0, payLen := 0,
        csumOut := xorFold (s.mem.readBytes 0x100 s.reqLen.toNat) }) ∧
    (¬ (s.written.has 0x00A = true ∧ ∀ i, i < s.reqLen.toNat → s.written.has (0x100 + i) = true) →
      exec .csum s = .next { s with cmd := 0x01, faultMark := s.faultMark.or (some .uninit) })

/-- R100: ENC_DS2, and everything it leaves unchanged: the bytes stored are TX_FRAME[0 : REQ_LEN + 3]. -/
def Obligations.EncDs2ResultAndFrame : Prop :=
  decode (.cmd8 0x02) = .ok .encDs2 ∧ ∀ s : State, s.busy = false → s.mem.wf = true →
    (s.written.has 0x00A = true → s.reqLen.toNat ≤ 252 → s.written.has 0x008 = true →
      (∀ i, i < s.reqLen.toNat → s.written.has (0x100 + i) = true) →
      ∃ t, exec .encDs2 s = .next t ∧
        t = { s with
          cmd := 0x02, phase := .complete, result := .ok, detail := none, statusClass := .none,
          statusRaw := 0x00, payOff := 0, payLen := 0, txLen := BitVec.ofNat 16 (s.reqLen.toNat + 3),
          csumOut := (encodeDs2 s.reqTarget (s.mem.readBytes 0x100 s.reqLen.toNat)).getD (s.reqLen.toNat + 2) 0,
          mem := t.mem } ∧
        (∀ i, i < s.reqLen.toNat + 3 → t.mem.read (0x200 + i) =
          (encodeDs2 s.reqTarget (s.mem.readBytes 0x100 s.reqLen.toNat)).getD i 0) ∧
        (∀ a, a < 0x200 ∨ 0x200 + (s.reqLen.toNat + 3) ≤ a → t.mem.read a = s.mem.read a)) ∧
    (s.written.has 0x00A = true → 252 < s.reqLen.toNat →
      exec .encDs2 s = .next { s with
        cmd := 0x02, phase := .failed, result := .payloadTooLong, detail := none, statusClass := .none,
        statusRaw := 0x00, payOff := 0, payLen := 0, txLen := 0 }) ∧
    (¬ (s.written.has 0x00A = true ∧ (s.reqLen.toNat ≤ 252 → s.written.has 0x008 = true ∧
        ∀ i, i < s.reqLen.toNat → s.written.has (0x100 + i) = true)) →
      exec .encDs2 s = .next { s with cmd := 0x02, faultMark := s.faultMark.or (some .uninit) })

/-- R120: ENC_KWP, and everything it leaves unchanged: the bytes stored are TX_FRAME[0 : REQ_LEN + 5]. -/
def Obligations.EncKwpResultAndFrame : Prop :=
  decode (.cmd8 0x03) = .ok .encKwp ∧ ∀ s : State, s.busy = false → s.mem.wf = true →
    (s.written.has 0x00A = true ∧ s.written.has 0x008 = true ∧ s.written.has 0x009 = true ∧
        (∀ i, i < s.reqLen.toNat → s.written.has (0x100 + i) = true) →
      ∃ t, exec .encKwp s = .next t ∧
        t = { s with
          cmd := 0x03, phase := .complete, result := .ok, detail := none, statusClass := .none,
          statusRaw := 0x00, payOff := 0, payLen := 0, txLen := BitVec.ofNat 16 (s.reqLen.toNat + 5),
          csumOut := (encodeKwp s.reqTarget s.reqSource
            (s.mem.readBytes 0x100 s.reqLen.toNat)).getD (s.reqLen.toNat + 4) 0,
          mem := t.mem } ∧
        (∀ i, i < s.reqLen.toNat + 5 → t.mem.read (0x200 + i) =
          (encodeKwp s.reqTarget s.reqSource (s.mem.readBytes 0x100 s.reqLen.toNat)).getD i 0) ∧
        (∀ a, a < 0x200 ∨ 0x200 + (s.reqLen.toNat + 5) ≤ a → t.mem.read a = s.mem.read a)) ∧
    (¬ (s.written.has 0x00A = true ∧ s.written.has 0x008 = true ∧ s.written.has 0x009 = true ∧
        ∀ i, i < s.reqLen.toNat → s.written.has (0x100 + i) = true) →
      exec .encKwp s = .next { s with cmd := 0x03, faultMark := s.faultMark.or (some .uninit) })

/-- R102, R122, R140: DEC_DS2 and DEC_KWP at their accept, and everything it leaves unchanged. They need no
operands. -/
def Obligations.DecodeCommandsAcceptAndFrame : Prop :=
  ∀ s : State, s.busy = false →
    exec .decDs2 s = .next { s with
      cmd := 0x04, phase := .decoding, result := .none, detail := none, statusClass := .none,
      statusRaw := 0x00, payOff := 0, payLen := 0, rxCount := 0, decNeed := 0, decAcc := 0x00 } ∧
    exec .decKwp s = .next { s with
      cmd := 0x05, phase := .decoding, result := .none, detail := none, statusClass := .none,
      statusRaw := 0x00, payOff := 0, payLen := 0, rxCount := 0, decNeed := 0, decAcc := 0x00 }

/-- R141: XACT_DS2 at its accept, and everything it leaves unchanged: the request frame is stored and transmitted and
the echo awaited, or with REQ_LEN > 252 nothing is transmitted. -/
def Obligations.XactDs2AcceptAndFrame : Prop :=
  ∀ s : State, s.busy = false → s.mem.wf = true →
    (s.written.has 0x00A = true → s.reqLen.toNat ≤ 252 → s.written.has 0x008 = true →
      (∀ i, i < s.reqLen.toNat → s.written.has (0x100 + i) = true) →
      ∃ t, exec .xactDs2 s = .next t ∧
        t = { s with
          cmd := 0x06, phase := .awaitingEcho, result := .none, detail := none, statusClass := .none,
          statusRaw := 0x00, payOff := 0, payLen := 0, txLen := BitVec.ofNat 16 (s.reqLen.toNat + 3),
          csumOut := (encodeDs2 s.reqTarget (s.mem.readBytes 0x100 s.reqLen.toNat)).getD (s.reqLen.toNat + 2) 0,
          txLog := s.txLog ++ [encodeDs2 s.reqTarget (s.mem.readBytes 0x100 s.reqLen.toNat)],
          echoCount := 0, rxCount := 0, decNeed := 0, decAcc := 0x00, mem := t.mem } ∧
        (∀ i, i < s.reqLen.toNat + 3 → t.mem.read (0x200 + i) =
          (encodeDs2 s.reqTarget (s.mem.readBytes 0x100 s.reqLen.toNat)).getD i 0) ∧
        (∀ a, a < 0x200 ∨ 0x200 + (s.reqLen.toNat + 3) ≤ a → t.mem.read a = s.mem.read a)) ∧
    (s.written.has 0x00A = true → 252 < s.reqLen.toNat →
      exec .xactDs2 s = .next { s with
        cmd := 0x06, phase := .failed, result := .payloadTooLong, detail := none, statusClass := .none,
        statusRaw := 0x00, payOff := 0, payLen := 0, txLen := 0 }) ∧
    (¬ (s.written.has 0x00A = true ∧ (s.reqLen.toNat ≤ 252 → s.written.has 0x008 = true ∧
        ∀ i, i < s.reqLen.toNat → s.written.has (0x100 + i) = true)) →
      exec .xactDs2 s = .next { s with cmd := 0x06, faultMark := s.faultMark.or (some .uninit) })

/-- R142: XACT_KWP at its accept, and everything it leaves unchanged. -/
def Obligations.XactKwpAcceptAndFrame : Prop :=
  ∀ s : State, s.busy = false → s.mem.wf = true →
    (s.written.has 0x00A = true ∧ s.written.has 0x008 = true ∧ s.written.has 0x009 = true ∧
        (∀ i, i < s.reqLen.toNat → s.written.has (0x100 + i) = true) →
      ∃ t, exec .xactKwp s = .next t ∧
        t = { s with
          cmd := 0x07, phase := .awaitingEcho, result := .none, detail := none, statusClass := .none,
          statusRaw := 0x00, payOff := 0, payLen := 0, txLen := BitVec.ofNat 16 (s.reqLen.toNat + 5),
          csumOut := (encodeKwp s.reqTarget s.reqSource
            (s.mem.readBytes 0x100 s.reqLen.toNat)).getD (s.reqLen.toNat + 4) 0,
          txLog := s.txLog ++ [encodeKwp s.reqTarget s.reqSource (s.mem.readBytes 0x100 s.reqLen.toNat)],
          echoCount := 0, rxCount := 0, decNeed := 0, decAcc := 0x00, mem := t.mem } ∧
        (∀ i, i < s.reqLen.toNat + 5 → t.mem.read (0x200 + i) =
          (encodeKwp s.reqTarget s.reqSource (s.mem.readBytes 0x100 s.reqLen.toNat)).getD i 0) ∧
        (∀ a, a < 0x200 ∨ 0x200 + (s.reqLen.toNat + 5) ≤ a → t.mem.read a = s.mem.read a)) ∧
    (¬ (s.written.has 0x00A = true ∧ s.written.has 0x008 = true ∧ s.written.has 0x009 = true ∧
        ∀ i, i < s.reqLen.toNat → s.written.has (0x100 + i) = true) →
      exec .xactKwp s = .next { s with cmd := 0x07, faultMark := s.faultMark.or (some .uninit) })

/-- R72: a reserved code written while not BUSY, as a command word and as a host write of CMD: accepted, failed at
once, and nothing happens on the Line. -/
def Obligations.ReservedCodeFailsAtOnce : Prop :=
  ∀ (s : State) (c : Byte), s.busy = false → c.toNat = 0x00 ∨ (0x08 ≤ c.toNat ∧ c.toNat ≤ 0xFF) →
    exec (.illegal c) s = .next { s with
      cmd := c, phase := .failed, result := .illegalCommand, detail := none, statusClass := .none,
      statusRaw := 0x00, payOff := 0, payLen := 0 } ∧
    exec (.hwr 0x000 (zext16 c)) s = exec (.illegal c) s

/-- R56: a write of CMD, of a request register or of a payload byte while BUSY is HOST_BUSY, is not performed, and
the running command goes on unchanged. A command word while BUSY is such a write. -/
def Obligations.WriteWhileBusyChangesNothing : Prop :=
  ∀ s : State, s.busy = true →
    (∀ (a : HostAddr) (d : Half), d.toNat < 0x100 →
      a.toNat = 0x000 ∨ (0x008 ≤ a.toNat ∧ a.toNat ≤ 0x00A) ∨ (0x100 ≤ a.toNat ∧ a.toNat ≤ 0x1FE) →
      exec (.hwr a d) s = .next { s with faultMark := s.faultMark.or (some .hostBusy) }) ∧
    (∀ c : Byte, exec (decodeCmd8 c) s = .next { s with faultMark := s.faultMark.or (some .hostBusy) })

/-! ## Host accesses -/

/-- R51, check 5: a request register or payload byte is written and joins W, and everything else is as before. -/
def Obligations.HostWriteSetsRequest : Prop :=
  ∀ (s : State) (d : Half), s.busy = false → d.toNat < 0x100 →
    (∃ t, exec (.hwr 0x008 d) s = .next t ∧
      t = { s with reqTarget := d.setWidth 8, written := t.written } ∧
      ∀ x, t.written.has x = (s.written.has x || x == 0x008)) ∧
    (∃ t, exec (.hwr 0x009 d) s = .next t ∧
      t = { s with reqSource := d.setWidth 8, written := t.written } ∧
      ∀ x, t.written.has x = (s.written.has x || x == 0x009)) ∧
    (∃ t, exec (.hwr 0x00A d) s = .next t ∧
      t = { s with reqLen := d.setWidth 8, written := t.written } ∧
      ∀ x, t.written.has x = (s.written.has x || x == 0x00A)) ∧
    (s.mem.wf = true → ∀ i, i < 255 →
      ∃ t, exec (.hwr (BitVec.ofNat 12 (0x100 + i)) d) s = .next t ∧
        t = { s with mem := t.mem, written := t.written } ∧
        (∀ x, t.written.has x = (s.written.has x || x == 0x100 + i)) ∧
        t.mem.read (0x100 + i) = d.setWidth 8 ∧
        ∀ a, a ≠ 0x100 + i → t.mem.read a = s.mem.read a)

/-- R53, R54, R55 and the order of R51: the writes that are model faults, and a read of a reserved address. -/
def Obligations.HostAccessModelFaults : Prop :=
  ∀ (s : State) (a : HostAddr) (d : Half),
    (locOf a = none →
      exec (.hwr a d) s = .next { s with faultMark := s.faultMark.or (some .reserved) } ∧
      exec (.hrd a) s = .next { s with hostData := none, faultMark := s.faultMark.or (some .reserved) }) ∧
    ((0x001 ≤ a.toNat ∧ a.toNat ≤ 0x006) ∨ (0x010 ≤ a.toNat ∧ a.toNat ≤ 0x014) ∨
        (0x200 ≤ a.toNat ∧ a.toNat ≤ 0x303) ∨ (0x400 ≤ a.toNat ∧ a.toNat ≤ 0x503) →
      exec (.hwr a d) s = .next { s with faultMark := s.faultMark.or (some .readOnly) }) ∧
    (0x100 ≤ d.toNat →
      a.toNat = 0x000 ∨ (0x008 ≤ a.toNat ∧ a.toNat ≤ 0x00A) ∨ (0x100 ≤ a.toNat ∧ a.toNat ≤ 0x1FE) →
      exec (.hwr a d) s = .next { s with faultMark := s.faultMark.or (some .badWrite) })

/-- R22, R70, R140: a host write of CMD runs the command its code selects, whatever the state. -/
def Obligations.HostWriteCmdRunsCommand : Prop :=
  ∀ (s : State) (c : Byte), exec (.hwr 0x000 (zext16 c)) s = exec (decodeCmd8 c) s

/-- R58: writing the same value twice to a request register or payload byte leaves the state one write leaves. -/
def Obligations.RequestWritesIdempotent : Prop :=
  ∀ (s : State) (a : HostAddr) (d : Half), s.Inv → a ≠ 0x000 →
    ∀ t, exec (.hwr a d) s = .next t → exec (.hwr a d) t = .next t

/-- R50: what a host read returns, for every readable location, with nothing else changed. -/
def Obligations.HostReadReturnsValue : Prop :=
  ∀ s : State,
    exec (.hrd 0x000) s = .next { s with hostData := some (zext16 s.cmd) } ∧
    exec (.hrd 0x001) s = .next { s with hostData := some (zext16 s.phase.code) } ∧
    exec (.hrd 0x002) s = .next { s with hostData := some (zext16 s.result.code) } ∧
    exec (.hrd 0x003) s = .next { s with hostData := some (zext16 (detailCode s.detail)) } ∧
    exec (.hrd 0x004) s = .next { s with hostData := some (zext16 s.statusClass.code) } ∧
    exec (.hrd 0x005) s = .next { s with hostData := some (zext16 s.statusRaw) } ∧
    exec (.hrd 0x006) s = .next { s with hostData := some (zext16 s.csumOut) } ∧
    (s.written.has 0x008 = true → exec (.hrd 0x008) s = .next { s with hostData := some (zext16 s.reqTarget) }) ∧
    (s.written.has 0x009 = true → exec (.hrd 0x009) s = .next { s with hostData := some (zext16 s.reqSource) }) ∧
    (s.written.has 0x00A = true → exec (.hrd 0x00A) s = .next { s with hostData := some (zext16 s.reqLen) }) ∧
    exec (.hrd 0x010) s = .next { s with hostData := some s.txLen } ∧
    exec (.hrd 0x011) s = .next { s with hostData := some s.rxCount } ∧
    exec (.hrd 0x012) s = .next { s with hostData := some s.echoCount } ∧
    exec (.hrd 0x013) s = .next { s with hostData := some s.payOff } ∧
    exec (.hrd 0x014) s = .next { s with hostData := some s.payLen } ∧
    (∀ i, i < 255 → s.written.has (0x100 + i) = true →
      exec (.hrd (BitVec.ofNat 12 (0x100 + i))) s =
        .next { s with hostData := some (zext16 (s.mem.read (0x100 + i))) }) ∧
    (∀ i, i < 260 → i < s.txLen.toNat →
      exec (.hrd (BitVec.ofNat 12 (0x200 + i))) s =
        .next { s with hostData := some (zext16 (s.mem.read (0x200 + i))) }) ∧
    (∀ i, i < 260 → i < s.rxCount.toNat →
      exec (.hrd (BitVec.ofNat 12 (0x400 + i))) s =
        .next { s with hostData := some (zext16 (s.mem.read (0x400 + i))) })

/-- R60 and the Host's part of R59: reads of stale frame bytes and of unwritten request locations return no value. -/
def Obligations.UnreadableReadsReturnNoValue : Prop :=
  ∀ s : State,
    (∀ a, a = 0x008 ∨ a = 0x009 ∨ a = 0x00A ∨ (0x100 ≤ a ∧ a ≤ 0x1FE) → s.written.has a = false →
      exec (.hrd (BitVec.ofNat 12 a)) s =
        .next { s with hostData := none, faultMark := s.faultMark.or (some .uninit) }) ∧
    (∀ i, i < 260 → s.txLen.toNat ≤ i →
      exec (.hrd (BitVec.ofNat 12 (0x200 + i))) s =
        .next { s with hostData := none, faultMark := s.faultMark.or (some .stale) }) ∧
    (∀ i, i < 260 → s.rxCount.toNat ≤ i →
      exec (.hrd (BitVec.ofNat 12 (0x400 + i))) s =
        .next { s with hostData := none, faultMark := s.faultMark.or (some .stale) })

/-- R57: a read of any address changes no state of KCODEC and, repeated, returns the same; and a write of an address
other than CMD changes at most the request registers, the payload byte it names, W and the fault mark. -/
def Obligations.ReadsHaveNoSideEffect : Prop :=
  (∀ (s : State) (a : HostAddr), ∃ t, exec (.hrd a) s = .next t ∧
    t = { s with hostData := t.hostData, faultMark := t.faultMark } ∧
    ∃ u, exec (.hrd a) t = .next u ∧ u.hostData = t.hostData) ∧
  (∀ (s : State) (a : HostAddr) (d : Half), a ≠ 0x000 → ∃ t, exec (.hwr a d) s = .next t ∧
    t = { s with
      reqTarget := t.reqTarget, reqSource := t.reqSource, reqLen := t.reqLen, mem := t.mem,
      written := t.written, faultMark := t.faultMark } ∧
    ∀ x : Nat, (∀ i, locOf a = some (.reqPayload i) → x ≠ 0x100 + i.val) → t.mem.read x = s.mem.read x)

/-- R23, R171, R25, R26, R82: the number a host read returns for every named value of STATE, RESULT, DETAIL and
STATUS_CLASS, and the ranges outside which no read of them answers. -/
def Obligations.ReservedValuesNeverRead : Prop :=
  ∀ s : State,
    (∀ p ∈ [(Phase.idle, (0x00 : Half)), (.decoding, 0x01), (.awaitingEcho, 0x02), (.awaitingReply, 0x03),
        (.complete, 0x04), (.failed, 0x05)],
      s.phase = p.1 → exec (.hrd 0x001) s = .next { s with hostData := some p.2 }) ∧
    (∀ p ∈ [(ResultCode.none, (0x00 : Half)), (.ok, 0x01), (.noReply, 0x10), (.incompleteFrame, 0x11),
        (.badLength, 0x12), (.checksumError, 0x13), (.unexpectedHeader, 0x14), (.busError, 0x20),
        (.addressUnreachable, 0x21), (.protocolError, 0x22), (.deviceStatusError, 0x23),
        (.insufficientPayload, 0x24), (.payloadTooLong, 0x30), (.illegalCommand, 0x31)],
      s.result = p.1 → exec (.hrd 0x002) s = .next { s with hostData := some p.2 }) ∧
    (∀ p ∈ [((none : Option Verdict), (0x00 : Half)), (some .ok, 0x01), (some .noReply, 0x10),
        (some .incompleteFrame, 0x11), (some .badLength, 0x12), (some .checksumError, 0x13),
        (some .unexpectedHeader, 0x14)],
      s.detail = p.1 → exec (.hrd 0x003) s = .next { s with hostData := some p.2 }) ∧
    (∀ p ∈ [(StatusClass.none, (0x00 : Half)), (.ok, 0x01), (.computerBusy, 0x02), (.invalidParameter, 0x03),
        (.invalidCommand, 0x04), (.unknownStatus, 0x05)],
      s.statusClass = p.1 → exec (.hrd 0x004) s = .next { s with hostData := some p.2 }) ∧
    (∀ d : Half,
      (s.hostRead 0x001 = .ok d → d.toNat ≤ 0x05) ∧
      (s.hostRead 0x002 = .ok d → d.toNat ≤ 0x01 ∨ (0x10 ≤ d.toNat ∧ d.toNat ≤ 0x14) ∨
        (0x20 ≤ d.toNat ∧ d.toNat ≤ 0x24) ∨ (0x30 ≤ d.toNat ∧ d.toNat ≤ 0x31)) ∧
      (s.hostRead 0x003 = .ok d → d.toNat ≤ 0x01 ∨ (0x10 ≤ d.toNat ∧ d.toNat ≤ 0x14)) ∧
      (s.hostRead 0x004 = .ok d → d.toNat ≤ 0x05))

/-! ## The Engine's steps -/

/-- R102, R103: one Engine step of DEC_DS2, for every answer of the Line, and everything it leaves unchanged. -/
def Obligations.DecDs2EngineStep : Prop :=
  ∀ s : State, s.nextTurn = .engine → s.phase = .decoding → s.cmd = 0x04 → s.rxCount.toNat < 260 →
    (s.rxAnswer = .timeout → s.rxCount = 0 →
      step s = .next { s.takeTurn.rxConsume with
        detail := some .noReply, phase := .failed, result := .noReply }) ∧
    (s.rxAnswer = .timeout → s.rxCount ≠ 0 →
      step s = .next { s.takeTurn.rxConsume with
        detail := some .incompleteFrame, phase := .failed, result := .incompleteFrame }) ∧
    (∀ r : Byte, s.rxAnswer = .byte r →
      let u : State := { s.takeTurn.rxConsume with
        mem := s.mem.write (0x400 + s.rxCount.toNat) r, rxCount := s.rxCount + 1, decAcc := s.decAcc ^^^ r }
      let need : Half := if s.rxCount = 1 then zext16 r else s.decNeed
      (s.rxCount = 1 → r.toNat < 3 →
        step s = .next { u with detail := some .badLength, phase := .failed, result := .badLength }) ∧
      (¬ (s.rxCount = 1 ∧ r.toNat < 3) → ¬ (need ≠ 0 ∧ s.rxCount + 1 = need) →
        step s = .next { u with decNeed := need }) ∧
      (¬ (s.rxCount = 1 ∧ r.toNat < 3) → need ≠ 0 → s.rxCount + 1 = need → s.decAcc ^^^ r ≠ 0x00 →
        step s = .next { u with
          decNeed := need, detail := some .checksumError, phase := .failed, result := .checksumError }) ∧
      (¬ (s.rxCount = 1 ∧ r.toNat < 3) → need ≠ 0 → s.rxCount + 1 = need → s.decAcc ^^^ r = 0x00 →
        step s = .next { u with
          decNeed := need, detail := some .ok, phase := .complete, result := .ok,
          payOff := 2, payLen := zext16 (u.mem.read 0x401) - 3 }))

/-- R122, R123: one Engine step of DEC_KWP, for every answer of the Line, and everything it leaves unchanged. -/
def Obligations.DecKwpEngineStep : Prop :=
  ∀ s : State, s.nextTurn = .engine → s.phase = .decoding → s.cmd = 0x05 → s.rxCount.toNat < 260 →
    (s.rxAnswer = .timeout → s.rxCount = 0 →
      step s = .next { s.takeTurn.rxConsume with
        detail := some .noReply, phase := .failed, result := .noReply }) ∧
    (s.rxAnswer = .timeout → s.rxCount ≠ 0 →
      step s = .next { s.takeTurn.rxConsume with
        detail := some .incompleteFrame, phase := .failed, result := .incompleteFrame }) ∧
    (∀ r : Byte, s.rxAnswer = .byte r →
      let u : State := { s.takeTurn.rxConsume with
        mem := s.mem.write (0x400 + s.rxCount.toNat) r, rxCount := s.rxCount + 1, decAcc := s.decAcc ^^^ r }
      let need : Half := if s.rxCount = 3 then zext16 r + 5 else s.decNeed
      (s.rxCount = 0 → r ≠ 0xB8 →
        step s = .next { u with
          detail := some .unexpectedHeader, phase := .failed, result := .unexpectedHeader }) ∧
      (¬ (s.rxCount = 0 ∧ r ≠ 0xB8) → ¬ (need ≠ 0 ∧ s.rxCount + 1 = need) →
        step s = .next { u with decNeed := need }) ∧
      (¬ (s.rxCount = 0 ∧ r ≠ 0xB8) → need ≠ 0 → s.rxCount + 1 = need → s.decAcc ^^^ r ≠ 0x00 →
        step s = .next { u with
          decNeed := need, detail := some .checksumError, phase := .failed, result := .checksumError }) ∧
      (¬ (s.rxCount = 0 ∧ r ≠ 0xB8) → need ≠ 0 → s.rxCount + 1 = need → s.decAcc ^^^ r = 0x00 →
        step s = .next { u with
          decNeed := need, detail := some .ok, phase := .complete, result := .ok,
          payOff := 4, payLen := zext16 (u.mem.read 0x403) }))

/-- R143, R145, R146: the echo phase of both transactions, in terms of the decoder's step. -/
def Obligations.EchoPhaseStep : Prop :=
  ∀ (s t : State) (v : Option Verdict), s.nextTurn = .engine → s.phase = .awaitingEcho →
    s.rxCount.toNat < 260 →
    (s.cmd = 0x06 ∧ s.takeTurn.decStepDs2 = (v, t)) ∨ (s.cmd = 0x07 ∧ s.takeTurn.decStepKwp = (v, t)) →
    (v = none → step s = .next t) ∧
    (v = some .ok → step s = .next { t with
      detail := some .ok, echoCount := t.rxCount, rxCount := 0, decNeed := 0, decAcc := 0x00,
      phase := .awaitingReply }) ∧
    (∀ x : Verdict, v = some x → x ≠ .ok → step s = .next { t with
      detail := some x, echoCount := t.rxCount, phase := .failed, result := .busError })

/-- R147, R148: a reply whose verdict is not OK, for both transactions. -/
def Obligations.ReplyVerdictMapping : Prop :=
  ∀ (s t : State) (v : Verdict) (r : ResultCode), s.nextTurn = .engine → s.phase = .awaitingReply →
    s.rxCount.toNat < 260 →
    (s.cmd = 0x06 ∧ s.takeTurn.decStepDs2 = (some v, t)) ∨
      (s.cmd = 0x07 ∧ s.takeTurn.decStepKwp = (some v, t)) →
    (v = .noReply ∧ r = .addressUnreachable) ∨ (v = .incompleteFrame ∧ r = .incompleteFrame) ∨
      (v = .badLength ∧ r = .badLength) ∨ (v = .checksumError ∧ r = .checksumError) ∨
      (v = .unexpectedHeader ∧ r = .protocolError) →
    step s = .next { t with detail := some v, phase := .failed, result := r }

/-- R149 to R153: a DS2 reply whose verdict is OK: the sender, the status byte's presence, its class, the payload
window, in that order. -/
def Obligations.Ds2ReplyClassification : Prop :=
  ∀ s t : State, s.nextTurn = .engine → s.phase = .awaitingReply → s.cmd = 0x06 →
    s.rxCount.toNat < 260 → s.takeTurn.decStepDs2 = (some .ok, t) →
    (t.rxByte 0 ≠ t.txByte 0 →
      step s = .next { t with detail := some .ok, phase := .failed, result := .protocolError }) ∧
    (t.rxByte 0 = t.txByte 0 → t.rxByte 1 = 3 →
      step s = .next { t with detail := some .ok, phase := .failed, result := .insufficientPayload }) ∧
    (t.rxByte 0 = t.txByte 0 → t.rxByte 1 ≠ 3 → t.rxByte 2 ≠ 0xA0 →
      ∃ c : StatusClass,
        ((t.rxByte 2 = 0xA1 ∧ c = .computerBusy) ∨ (t.rxByte 2 = 0xA2 ∧ c = .invalidParameter) ∨
          (t.rxByte 2 = 0xFF ∧ c = .invalidCommand) ∨
          (t.rxByte 2 ≠ 0xA1 ∧ t.rxByte 2 ≠ 0xA2 ∧ t.rxByte 2 ≠ 0xFF ∧ c = .unknownStatus)) ∧
        step s = .next { t with
          detail := some .ok, statusRaw := t.rxByte 2, statusClass := c, phase := .failed,
          result := .deviceStatusError }) ∧
    (t.rxByte 0 = t.txByte 0 → t.rxByte 1 ≠ 3 → t.rxByte 2 = 0xA0 →
      step s = .next { t with
        detail := some .ok, statusRaw := 0xA0, statusClass := .ok, payOff := 3,
        payLen := zext16 (t.rxByte 1) - 4, phase := .complete, result := .ok })

/-- R154, R155: any framed KWP2000 reply is a success, whatever its bytes 1 and 2. -/
def Obligations.KwpReplySuccess : Prop :=
  ∀ s t : State, s.nextTurn = .engine → s.phase = .awaitingReply → s.cmd = 0x07 →
    s.rxCount.toNat < 260 → s.takeTurn.decStepKwp = (some .ok, t) →
    step s = .next { t with
      detail := some .ok, payOff := 4, payLen := zext16 (t.rxByte 3), phase := .complete, result := .ok }

/-- R103, R123: what one decoder step changes, for both decoders: the answer is taken, and with a byte RX_FRAME[RX_COUNT]
is stored, RX_COUNT and DEC_ACC follow, and DEC_NEED may be set. Every other byte of memory and every other register is
as before; with TIMEOUT all of them are. -/
def Obligations.DecoderStepFrame : Prop :=
  ∀ (s t : State) (v : Option Verdict), s.mem.wf = true → s.rxCount.toNat < 260 →
    s.decStepDs2 = (v, t) ∨ s.decStepKwp = (v, t) →
    t = { s with
      mem := t.mem, rxCount := t.rxCount, decNeed := t.decNeed, decAcc := t.decAcc, rx := s.rx.tail,
      rxTaken := s.rxTaken + 1 } ∧
    (s.rxAnswer = .timeout →
      t.mem = s.mem ∧ t.rxCount = s.rxCount ∧ t.decNeed = s.decNeed ∧ t.decAcc = s.decAcc ∧
      (s.rxCount = 0 → v = some .noReply) ∧ (s.rxCount ≠ 0 → v = some .incompleteFrame)) ∧
    (∀ r : Byte, s.rxAnswer = .byte r →
      t.mem.read (0x400 + s.rxCount.toNat) = r ∧
      (∀ a, a ≠ 0x400 + s.rxCount.toNat → t.mem.read a = s.mem.read a) ∧
      t.rxCount = s.rxCount + 1 ∧ t.decAcc = s.decAcc ^^^ r)

/-! ## Properties of every step -/

/-- The invariant is kept by every step: of the Host, of the Engine, and by reset. -/
def Obligations.StepKeepsStateInvariant : Prop :=
  ∀ s t : State, s.Inv → step s = .next t → t.Inv

/-- From a state that meets the invariant no step stops with a fault, and a step is refused only for a malformed host
program. -/
def Obligations.InvariantStatesNeverStop : Prop :=
  ∀ s : State, s.Inv → programOk s.program = true → ∃ t, step s = .next t

/-- R44: the fault mark is none at reset, records the first model fault, and no step clears it. -/
def Obligations.FaultMarkIsSticky : Prop :=
  State.reset.faultMark = none ∧
  (∀ (s t : State) (f : ModelFault), s.faultMark = some f → step s = .next t → t.faultMark = some f)

/-- R40, R143, R64: an Engine step takes exactly one answer from the Line, and no other step takes any; nothing is put
back, flushed or, by reset, cleared. -/
def Obligations.OneReadPerEngineStep : Prop :=
  ∀ s t : State, step s = .next t →
    (s.nextTurn = .engine ∧ s.busy = true → t.rxTaken = s.rxTaken + 1 ∧ t.rx = s.rx.tail) ∧
    (¬ (s.nextTurn = .engine ∧ s.busy = true) → t.rxTaken = s.rxTaken ∧ t.rx = s.rx)

/-- R156, R61: TXLOG grows only by the request frame of an accepted XACT_*, one entry, and is never cut. -/
def Obligations.TransmitsOnlyAtAccept : Prop :=
  ∀ s t : State, s.Inv → step s = .next t →
    t.txLog = s.txLog ∨
    (s.nextTurn = .host ∧ s.busy = false ∧ t.phase = .awaitingEcho ∧ (t.cmd = 0x06 ∨ t.cmd = 0x07) ∧
      t.txLog = s.txLog ++ [t.txFrame])

/-- R176: in COMPLETE or FAILED the results stay until the next accepted CMD write or reset. -/
def Obligations.ResultsStayUntilNextCommand : Prop :=
  ∀ s t : State, s.mem.wf = true → s.done = true → s.nextTurn ≠ .reset → step s = .next t →
    (s.nextTurn = .host → ∀ i, s.takeTurn.hostAction = .run i →
      (∃ a, i = .hrd a) ∨ ∃ a d, i = .hwr a d ∧ (a ≠ 0x000 ∨ 0x100 ≤ d.toNat)) →
    t.cmd = s.cmd ∧ t.phase = s.phase ∧ t.result = s.result ∧ t.detail = s.detail ∧
    t.statusClass = s.statusClass ∧ t.statusRaw = s.statusRaw ∧ t.csumOut = s.csumOut ∧
    t.txLen = s.txLen ∧ t.rxCount = s.rxCount ∧ t.echoCount = s.echoCount ∧ t.payOff = s.payOff ∧
    t.payLen = s.payLen ∧ (∀ i, i < 260 → t.txByte i = s.txByte i ∧ t.rxByte i = s.rxByte i)

/-- R59, R60, R46: what nobody may read never matters. From two states that differ only in unwritten request bytes and
stale frame bytes, one step gives two such states again. -/
def Obligations.UnreadableBytesNeverMatter : Prop :=
  ∀ s t s' : State, s.Inv → t.Inv → s.agreesReadable t → step s = .next s' →
    ∃ t', step t = .next t' ∧ s'.agreesReadable t'

/-- R157, at the accept: what a command does and every result it writes depend on the request and the Line, and on
nothing the command before it left. -/
def Obligations.AcceptIgnoresEarlierCommands : Prop :=
  ∀ (s t : State) (c : Byte), s.mem.wf = true → t.mem.wf = true → s.busy = false → t.busy = false →
    s.sameRequest t → s.operandsPresent (decodeCmd8 c) = true →
    ∃ s' t', exec (decodeCmd8 c) s = .next s' ∧ exec (decodeCmd8 c) t = .next t' ∧ s'.sameCommand t'

/-- R157, for the Engine: two states at the same point of the same command stay so at every Engine step, the one that
ends it and writes its results among them, whatever came before the command. -/
def Obligations.EngineIgnoresEarlierCommands : Prop :=
  ∀ s t s' : State, s.Inv → t.Inv → s.sameCommand t → s.nextTurn = .engine → t.nextTurn = .engine →
    step s = .next s' → ∃ t', step t = .next t' ∧ s'.sameCommand t'

/-! ## Whole commands -/

/-- R158: from any point of a command, whatever the Line answers and whatever the Host does at its places in between,
it has ended once the order has given the Engine at most 255 places for DEC_DS2, 260 for DEC_KWP, 510 for XACT_DS2 and
520 for XACT_KWP, each with one read. (A reset would abandon it, R201.) -/
def Obligations.CommandsEndWithinBounds : Prop :=
  ∀ (s : State) (n m : Nat), s.Inv → s.busy = true →
    (s.cmd = 0x04 ∧ n = 255) ∨ (s.cmd = 0x05 ∧ n = 260) ∨ (s.cmd = 0x06 ∧ n = 510) ∨
      (s.cmd = 0x07 ∧ n = 520) →
    (∀ j, j < m → s.turnAt j ≠ .reset) →
    programOk s.program = true ∨ (∀ j, j < m → s.turnAt j ≠ .host) →
    n ≤ s.engineTurns m →
    ∃ k t, k ≤ m ∧ Host.Core.run core k s = .next t ∧ t.done = true ∧
      t.rxTaken = s.rxTaken + s.engineTurns k ∧ s.engineTurns k ≤ n

/-- R107, R108, R109: a DS2 frame that arrives whole is decoded to its end and no further, its verdict is its
checksum's, and its bytes and its payload window are there to read. -/
def Obligations.WholeDs2FrameVerdict : Prop :=
  ∀ (s : State) (f : List Byte) (rest : List RxAnswer) (sched : List Turn), s.Inv → s.phase = .decoding →
    s.cmd = 0x04 → s.rxCount = 0 → 3 ≤ f.length → (f.getD 1 0).toNat = f.length → s.lineGives f rest →
    s.schedule = List.replicate f.length .engine ++ sched →
    ∃ t, Host.Core.run core f.length s = .next t ∧ t.rx = rest ∧ t.rxFrame = f ∧
      (xorFold f.dropLast = f.getLastD 0 →
        t.phase = .complete ∧ t.result = .ok ∧ t.detail = some .ok ∧ t.payOff = 2 ∧
        t.payLen.toNat = f.length - 3) ∧
      (xorFold f.dropLast ≠ f.getLastD 0 →
        t.phase = .failed ∧ t.result = .checksumError ∧ t.detail = some .checksumError ∧ t.payOff = 0 ∧
        t.payLen = 0)

/-- R126, R127: a KWP2000 frame that arrives whole. -/
def Obligations.WholeKwpFrameVerdict : Prop :=
  ∀ (s : State) (f : List Byte) (rest : List RxAnswer) (sched : List Turn), s.Inv → s.phase = .decoding →
    s.cmd = 0x05 → s.rxCount = 0 → f.getD 0 0 = 0xB8 → 5 ≤ f.length → (f.getD 3 0).toNat + 5 = f.length →
    s.lineGives f rest → s.schedule = List.replicate f.length .engine ++ sched →
    ∃ t, Host.Core.run core f.length s = .next t ∧ t.rx = rest ∧ t.rxFrame = f ∧
      (xorFold f.dropLast = f.getLastD 0 →
        t.phase = .complete ∧ t.result = .ok ∧ t.detail = some .ok ∧ t.payOff = 4 ∧
        t.payLen.toNat = f.length - 5) ∧
      (xorFold f.dropLast ≠ f.getLastD 0 →
        t.phase = .failed ∧ t.result = .checksumError ∧ t.detail = some .checksumError ∧ t.payOff = 0 ∧
        t.payLen = 0)

/-- R110: the DS2 round trip, from the command's accept. -/
def Obligations.Ds2RoundTrip : Prop :=
  ∀ (s : State) (a : Byte) (p : List Byte) (rest : List RxAnswer) (sched : List Turn), s.Inv →
    s.busy = false → p.length ≤ 252 → s.lineGives (encodeDs2 a p) rest →
    s.schedule = List.replicate (p.length + 3) .engine ++ sched →
    ∃ u t, exec .decDs2 s = .next u ∧ Host.Core.run core (p.length + 3) u = .next t ∧
      t.phase = .complete ∧ t.rxByte 0 = a ∧ t.mem.readBytes (0x400 + 2) p.length = p ∧
      t.rxCount.toNat = p.length + 3 ∧ t.payLen.toNat = p.length

/-- R129: the KWP2000 round trip, from the command's accept. -/
def Obligations.KwpRoundTrip : Prop :=
  ∀ (s : State) (a b : Byte) (p : List Byte) (rest : List RxAnswer) (sched : List Turn), s.Inv →
    s.busy = false → p.length ≤ 255 → s.lineGives (encodeKwp a b p) rest →
    s.schedule = List.replicate (p.length + 5) .engine ++ sched →
    ∃ u t, exec .decKwp s = .next u ∧ Host.Core.run core (p.length + 5) u = .next t ∧
      t.phase = .complete ∧ t.rxByte 1 = a ∧ t.rxByte 2 = b ∧
      t.mem.readBytes (0x400 + 4) p.length = p ∧ t.rxCount.toNat = p.length + 5

/-- R104, R105, R125: a frame that stops arriving, for both decoders: after no byte NO_REPLY, after some bytes
INCOMPLETE_FRAME with exactly those bytes in RX_FRAME. -/
def Obligations.FrameCutShortByTimeout : Prop :=
  ∀ (s : State) (p : List Byte) (rest : List RxAnswer) (sched : List Turn), s.Inv → s.phase = .decoding →
    s.rxCount = 0 → s.lineGives p (.timeout :: rest) →
    s.schedule = List.replicate (p.length + 1) .engine ++ sched →
    (s.cmd = 0x04 ∧ (2 ≤ p.length → 3 ≤ (p.getD 1 0).toNat ∧ p.length < (p.getD 1 0).toNat)) ∨
      (s.cmd = 0x05 ∧ (1 ≤ p.length → p.getD 0 0 = 0xB8) ∧
        (4 ≤ p.length → p.length < (p.getD 3 0).toNat + 5)) →
    ∃ t, Host.Core.run core (p.length + 1) s = .next t ∧ t.phase = .failed ∧ t.rx = rest ∧
      t.rxFrame = p ∧ t.rxCount.toNat = p.length ∧
      (p = [] → t.result = .noReply ∧ t.detail = some .noReply) ∧
      (p ≠ [] → t.result = .incompleteFrame ∧ t.detail = some .incompleteFrame)

/-- R106, R124, R128: a DS2 length byte below 3 ends the decode after two bytes, and a KWP2000 first byte other than
0xB8 after one; no further byte is read. -/
def Obligations.FramingFailuresStopAtOnce : Prop :=
  ∀ (s : State) (rest : List RxAnswer) (sched : List Turn), s.Inv → s.phase = .decoding → s.rxCount = 0 →
    (∀ a l : Byte, s.cmd = 0x04 → l.toNat < 3 → s.lineGives [a, l] rest →
      s.schedule = .engine :: .engine :: sched →
      ∃ t, Host.Core.run core 2 s = .next t ∧ t.phase = .failed ∧ t.result = .badLength ∧
        t.detail = some .badLength ∧ t.rxCount = 2 ∧ t.rxFrame = [a, l] ∧ t.rx = rest) ∧
    (∀ h : Byte, s.cmd = 0x05 → h ≠ 0xB8 → s.lineGives [h] rest → s.schedule = .engine :: sched →
      ∃ t, Host.Core.run core 1 s = .next t ∧ t.phase = .failed ∧ t.result = .unexpectedHeader ∧
        t.detail = some .unexpectedHeader ∧ t.rxCount = 1 ∧ t.rxFrame = [h] ∧ t.rx = rest)

/-- R94: one flipped bit in a byte that is no framing byte is always detected, in both formats. -/
def Obligations.SingleBitFlipDetected : Prop :=
  ∀ (s : State) (f : List Byte) (j k : Nat) (rest : List RxAnswer) (sched : List Turn), s.Inv →
    s.phase = .decoding → s.rxCount = 0 → xorFold f.dropLast = f.getLastD 0 → j < f.length → k < 8 →
    (s.cmd = 0x04 ∧ 3 ≤ f.length ∧ (f.getD 1 0).toNat = f.length ∧ j ≠ 1) ∨
      (s.cmd = 0x05 ∧ 5 ≤ f.length ∧ f.getD 0 0 = 0xB8 ∧ (f.getD 3 0).toNat + 5 = f.length ∧
        j ≠ 0 ∧ j ≠ 3) →
    s.lineGives (f.set j (f.getD j 0 ^^^ (1#8 <<< k))) rest →
    s.schedule = List.replicate f.length .engine ++ sched →
    ∃ t, Host.Core.run core f.length s = .next t ∧ t.phase = .failed ∧ t.result = .checksumError

/-- R144: the echo is framed, not compared. Any valid frame of the transaction's protocol is taken as the echo,
whatever was sent. -/
def Obligations.EchoIsNotCompared : Prop :=
  ∀ (s : State) (e : List Byte) (rest : List RxAnswer) (sched : List Turn), s.Inv →
    s.phase = .awaitingEcho → s.rxCount = 0 → xorFold e.dropLast = e.getLastD 0 →
    (s.cmd = 0x06 ∧ 3 ≤ e.length ∧ (e.getD 1 0).toNat = e.length) ∨
      (s.cmd = 0x07 ∧ 5 ≤ e.length ∧ e.getD 0 0 = 0xB8 ∧ (e.getD 3 0).toNat + 5 = e.length) →
    s.lineGives e rest → s.schedule = List.replicate e.length .engine ++ sched →
    ∃ t, Host.Core.run core e.length s = .next t ∧ t.phase = .awaitingReply ∧
      t.echoCount.toNat = e.length ∧ t.rxCount = 0 ∧ t.rx = rest

/-- R208: without an echo the ECU's reply is taken for it and the transaction ends ADDRESS_UNREACHABLE; with neither
it ends BUS_ERROR; for both transactions. -/
def Obligations.MissingEchoSwallowsReply : Prop :=
  ∀ (s : State) (g : List Byte) (rest : List RxAnswer) (sched : List Turn), s.Inv →
    s.phase = .awaitingEcho → s.rxCount = 0 →
    ((s.cmd = 0x06 ∧ 3 ≤ g.length ∧ (g.getD 1 0).toNat = g.length) ∨
        (s.cmd = 0x07 ∧ 5 ≤ g.length ∧ g.getD 0 0 = 0xB8 ∧ (g.getD 3 0).toNat + 5 = g.length) →
      xorFold g.dropLast = g.getLastD 0 → s.lineGives g (.timeout :: rest) →
      s.schedule = List.replicate (g.length + 1) .engine ++ sched →
      ∃ t, Host.Core.run core (g.length + 1) s = .next t ∧ t.phase = .failed ∧
        t.result = .addressUnreachable ∧ t.detail = some .noReply ∧ t.echoCount.toNat = g.length) ∧
    (s.rx = .timeout :: rest → s.schedule = .engine :: sched →
      ∃ t, Host.Core.run core 1 s = .next t ∧ t.phase = .failed ∧ t.result = .busError ∧
        t.detail = some .noReply ∧ t.echoCount = 0)

/-- R141 to R153, end to end: a DS2 transaction on a Line that echoes faithfully (R65, a premise) and an ECU that
answers with success: the echo is discarded and the payload after the status byte is handed on unmodified. -/
def Obligations.Ds2TransactionEndToEnd : Prop :=
  ∀ (s : State) (d : List Byte) (rest : List RxAnswer) (sched : List Turn), s.Inv → s.busy = false →
    s.operandsPresent .xactDs2 = true → s.reqLen.toNat ≤ 252 → d.length ≤ 251 →
    s.lineGives (s.ds2Request ++ encodeDs2 s.reqTarget (0xA0 :: d)) rest →
    s.schedule = List.replicate (s.reqLen.toNat + 3 + (d.length + 4)) .engine ++ sched →
    ∃ u t, exec .xactDs2 s = .next u ∧
      Host.Core.run core (s.reqLen.toNat + 3 + (d.length + 4)) u = .next t ∧
      t.phase = .complete ∧ t.result = .ok ∧ t.detail = some .ok ∧ t.statusClass = .ok ∧
      t.statusRaw = 0xA0 ∧ t.echoCount.toNat = s.reqLen.toNat + 3 ∧ t.payOff = 3 ∧
      t.payLen.toNat = d.length ∧ t.mem.readBytes (0x400 + 3) d.length = d ∧
      t.txLog = s.txLog ++ [s.ds2Request] ∧ t.rx = rest

/-- R142 to R155, end to end: a KWP2000 transaction on a Line that echoes faithfully (R65, a premise) and an ECU that
answers with any frame. -/
def Obligations.KwpTransactionEndToEnd : Prop :=
  ∀ (s : State) (a b : Byte) (d : List Byte) (rest : List RxAnswer) (sched : List Turn), s.Inv →
    s.busy = false → s.operandsPresent .xactKwp = true → d.length ≤ 255 →
    s.lineGives (s.kwpRequest ++ encodeKwp a b d) rest →
    s.schedule = List.replicate (s.reqLen.toNat + 5 + (d.length + 5)) .engine ++ sched →
    ∃ u t, exec .xactKwp s = .next u ∧
      Host.Core.run core (s.reqLen.toNat + 5 + (d.length + 5)) u = .next t ∧
      t.phase = .complete ∧ t.result = .ok ∧ t.detail = some .ok ∧ t.statusClass = .none ∧
      t.echoCount.toNat = s.reqLen.toNat + 5 ∧ t.payOff = 4 ∧ t.payLen.toNat = d.length ∧
      t.mem.readBytes (0x400 + 4) d.length = d ∧ t.txLog = s.txLog ++ [s.kwpRequest] ∧ t.rx = rest

/-! ## Termination -/

/-- R210: under Engine fairness, every command ends within the bounds of R158, each Engine step with one read, whatever
the Line answers and the Host does, unless a reset abandons it first (R201); and the Host's polling loop, begun after a
command, has only finitely many rounds that read BUSY, and is left with DONE read if the Host goes on to its next round.
(That the Host's places come is the model's premise on its order, log 3, and none on KCODEC.) -/
def Obligations.FairnessGivesTermination : Prop :=
  (∀ (s : State) (n : Nat), s.Inv → s.busy = true → programOk s.program = true → s.engineFair →
    (s.cmd = 0x04 ∧ n = 255) ∨ (s.cmd = 0x05 ∧ n = 260) ∨ (s.cmd = 0x06 ∧ n = 510) ∨
      (s.cmd = 0x07 ∧ n = 520) →
    ∃ k t, Host.Core.run core k s = .next t ∧ (∀ j, j < k → s.turnAt j ≠ .reset) ∧
      (t.done = true ∨ t.nextTurn = .reset) ∧ t.rxTaken = s.rxTaken + s.engineTurns k ∧
      s.engineTurns k ≤ n) ∧
  (∀ (s : State) (rest : List HostStmt), s.Inv → s.phase ≠ .idle → s.program = .poll :: rest →
    programOk rest = true → s.engineFair →
    (∀ k u, Host.Core.run core k s = .next u → u.program = .poll :: rest → u.nextTurn ≠ .reset) →
    (∃ k, ∀ j u, k ≤ j → Host.Core.run core j s = .next u → u.program = .poll :: rest → u.done = true) ∧
    ((∀ k u, Host.Core.run core k s = .next u → u.program = .poll :: rest → ∃ j, u.turnAt j = .host) →
      ∃ k t, Host.Core.run core k s = .next t ∧ t.program = rest ∧ t.done = true ∧
        t.hostData = some (zext16 t.phase.code)))
end

