-- ==== Sys2Proof/Laws/State.lean ====
section
/-! SUPPORT. What each shared update of the state leaves in each field: one lemma per field per update. -/

namespace Sys2Proof.Machine

/-! ### `State.markFault` -/

@[simp] theorem State.markFault_cmd (f : ModelFault) (s : State) : (s.markFault f).cmd = s.cmd := rfl
@[simp] theorem State.markFault_phase (f : ModelFault) (s : State) : (s.markFault f).phase = s.phase := rfl
@[simp] theorem State.markFault_result (f : ModelFault) (s : State) : (s.markFault f).result = s.result := rfl
@[simp] theorem State.markFault_detail (f : ModelFault) (s : State) : (s.markFault f).detail = s.detail := rfl
@[simp] theorem State.markFault_statusClass (f : ModelFault) (s : State) : (s.markFault f).statusClass = s.statusClass := rfl
@[simp] theorem State.markFault_statusRaw (f : ModelFault) (s : State) : (s.markFault f).statusRaw = s.statusRaw := rfl
@[simp] theorem State.markFault_csumOut (f : ModelFault) (s : State) : (s.markFault f).csumOut = s.csumOut := rfl
@[simp] theorem State.markFault_reqTarget (f : ModelFault) (s : State) : (s.markFault f).reqTarget = s.reqTarget := rfl
@[simp] theorem State.markFault_reqSource (f : ModelFault) (s : State) : (s.markFault f).reqSource = s.reqSource := rfl
@[simp] theorem State.markFault_reqLen (f : ModelFault) (s : State) : (s.markFault f).reqLen = s.reqLen := rfl
@[simp] theorem State.markFault_txLen (f : ModelFault) (s : State) : (s.markFault f).txLen = s.txLen := rfl
@[simp] theorem State.markFault_rxCount (f : ModelFault) (s : State) : (s.markFault f).rxCount = s.rxCount := rfl
@[simp] theorem State.markFault_echoCount (f : ModelFault) (s : State) : (s.markFault f).echoCount = s.echoCount := rfl
@[simp] theorem State.markFault_payOff (f : ModelFault) (s : State) : (s.markFault f).payOff = s.payOff := rfl
@[simp] theorem State.markFault_payLen (f : ModelFault) (s : State) : (s.markFault f).payLen = s.payLen := rfl
@[simp] theorem State.markFault_mem (f : ModelFault) (s : State) : (s.markFault f).mem = s.mem := rfl
@[simp] theorem State.markFault_decNeed (f : ModelFault) (s : State) : (s.markFault f).decNeed = s.decNeed := rfl
@[simp] theorem State.markFault_decAcc (f : ModelFault) (s : State) : (s.markFault f).decAcc = s.decAcc := rfl
@[simp] theorem State.markFault_written (f : ModelFault) (s : State) : (s.markFault f).written = s.written := rfl
@[simp] theorem State.markFault_faultMark (f : ModelFault) (s : State) : (s.markFault f).faultMark = s.faultMark.or (some f) := rfl
@[simp] theorem State.markFault_txLog (f : ModelFault) (s : State) : (s.markFault f).txLog = s.txLog := rfl
@[simp] theorem State.markFault_rx (f : ModelFault) (s : State) : (s.markFault f).rx = s.rx := rfl
@[simp] theorem State.markFault_rxTaken (f : ModelFault) (s : State) : (s.markFault f).rxTaken = s.rxTaken := rfl
@[simp] theorem State.markFault_program (f : ModelFault) (s : State) : (s.markFault f).program = s.program := rfl
@[simp] theorem State.markFault_hostData (f : ModelFault) (s : State) : (s.markFault f).hostData = s.hostData := rfl
@[simp] theorem State.markFault_schedule (f : ModelFault) (s : State) : (s.markFault f).schedule = s.schedule := rfl
@[simp] theorem State.markFault_turnsTaken (f : ModelFault) (s : State) : (s.markFault f).turnsTaken = s.turnsTaken := rfl

/-! ### `State.raise` -/

@[simp] theorem State.raise_cmd (r : ResultCode) (s : State) : (s.raise r).cmd = s.cmd := rfl
@[simp] theorem State.raise_phase (r : ResultCode) (s : State) : (s.raise r).phase = .failed := rfl
@[simp] theorem State.raise_result (r : ResultCode) (s : State) : (s.raise r).result = r := rfl
@[simp] theorem State.raise_detail (r : ResultCode) (s : State) : (s.raise r).detail = s.detail := rfl
@[simp] theorem State.raise_statusClass (r : ResultCode) (s : State) : (s.raise r).statusClass = s.statusClass := rfl
@[simp] theorem State.raise_statusRaw (r : ResultCode) (s : State) : (s.raise r).statusRaw = s.statusRaw := rfl
@[simp] theorem State.raise_csumOut (r : ResultCode) (s : State) : (s.raise r).csumOut = s.csumOut := rfl
@[simp] theorem State.raise_reqTarget (r : ResultCode) (s : State) : (s.raise r).reqTarget = s.reqTarget := rfl
@[simp] theorem State.raise_reqSource (r : ResultCode) (s : State) : (s.raise r).reqSource = s.reqSource := rfl
@[simp] theorem State.raise_reqLen (r : ResultCode) (s : State) : (s.raise r).reqLen = s.reqLen := rfl
@[simp] theorem State.raise_txLen (r : ResultCode) (s : State) : (s.raise r).txLen = s.txLen := rfl
@[simp] theorem State.raise_rxCount (r : ResultCode) (s : State) : (s.raise r).rxCount = s.rxCount := rfl
@[simp] theorem State.raise_echoCount (r : ResultCode) (s : State) : (s.raise r).echoCount = s.echoCount := rfl
@[simp] theorem State.raise_payOff (r : ResultCode) (s : State) : (s.raise r).payOff = s.payOff := rfl
@[simp] theorem State.raise_payLen (r : ResultCode) (s : State) : (s.raise r).payLen = s.payLen := rfl
@[simp] theorem State.raise_mem (r : ResultCode) (s : State) : (s.raise r).mem = s.mem := rfl
@[simp] theorem State.raise_decNeed (r : ResultCode) (s : State) : (s.raise r).decNeed = s.decNeed := rfl
@[simp] theorem State.raise_decAcc (r : ResultCode) (s : State) : (s.raise r).decAcc = s.decAcc := rfl
@[simp] theorem State.raise_written (r : ResultCode) (s : State) : (s.raise r).written = s.written := rfl
@[simp] theorem State.raise_faultMark (r : ResultCode) (s : State) : (s.raise r).faultMark = s.faultMark := rfl
@[simp] theorem State.raise_txLog (r : ResultCode) (s : State) : (s.raise r).txLog = s.txLog := rfl
@[simp] theorem State.raise_rx (r : ResultCode) (s : State) : (s.raise r).rx = s.rx := rfl
@[simp] theorem State.raise_rxTaken (r : ResultCode) (s : State) : (s.raise r).rxTaken = s.rxTaken := rfl
@[simp] theorem State.raise_program (r : ResultCode) (s : State) : (s.raise r).program = s.program := rfl
@[simp] theorem State.raise_hostData (r : ResultCode) (s : State) : (s.raise r).hostData = s.hostData := rfl
@[simp] theorem State.raise_schedule (r : ResultCode) (s : State) : (s.raise r).schedule = s.schedule := rfl
@[simp] theorem State.raise_turnsTaken (r : ResultCode) (s : State) : (s.raise r).turnsTaken = s.turnsTaken := rfl

/-! ### `State.complete` -/

@[simp] theorem State.complete_cmd (s : State) : (s.complete).cmd = s.cmd := rfl
@[simp] theorem State.complete_phase (s : State) : (s.complete).phase = .complete := rfl
@[simp] theorem State.complete_result (s : State) : (s.complete).result = .ok := rfl
@[simp] theorem State.complete_detail (s : State) : (s.complete).detail = s.detail := rfl
@[simp] theorem State.complete_statusClass (s : State) : (s.complete).statusClass = s.statusClass := rfl
@[simp] theorem State.complete_statusRaw (s : State) : (s.complete).statusRaw = s.statusRaw := rfl
@[simp] theorem State.complete_csumOut (s : State) : (s.complete).csumOut = s.csumOut := rfl
@[simp] theorem State.complete_reqTarget (s : State) : (s.complete).reqTarget = s.reqTarget := rfl
@[simp] theorem State.complete_reqSource (s : State) : (s.complete).reqSource = s.reqSource := rfl
@[simp] theorem State.complete_reqLen (s : State) : (s.complete).reqLen = s.reqLen := rfl
@[simp] theorem State.complete_txLen (s : State) : (s.complete).txLen = s.txLen := rfl
@[simp] theorem State.complete_rxCount (s : State) : (s.complete).rxCount = s.rxCount := rfl
@[simp] theorem State.complete_echoCount (s : State) : (s.complete).echoCount = s.echoCount := rfl
@[simp] theorem State.complete_payOff (s : State) : (s.complete).payOff = s.payOff := rfl
@[simp] theorem State.complete_payLen (s : State) : (s.complete).payLen = s.payLen := rfl
@[simp] theorem State.complete_mem (s : State) : (s.complete).mem = s.mem := rfl
@[simp] theorem State.complete_decNeed (s : State) : (s.complete).decNeed = s.decNeed := rfl
@[simp] theorem State.complete_decAcc (s : State) : (s.complete).decAcc = s.decAcc := rfl
@[simp] theorem State.complete_written (s : State) : (s.complete).written = s.written := rfl
@[simp] theorem State.complete_faultMark (s : State) : (s.complete).faultMark = s.faultMark := rfl
@[simp] theorem State.complete_txLog (s : State) : (s.complete).txLog = s.txLog := rfl
@[simp] theorem State.complete_rx (s : State) : (s.complete).rx = s.rx := rfl
@[simp] theorem State.complete_rxTaken (s : State) : (s.complete).rxTaken = s.rxTaken := rfl
@[simp] theorem State.complete_program (s : State) : (s.complete).program = s.program := rfl
@[simp] theorem State.complete_hostData (s : State) : (s.complete).hostData = s.hostData := rfl
@[simp] theorem State.complete_schedule (s : State) : (s.complete).schedule = s.schedule := rfl
@[simp] theorem State.complete_turnsTaken (s : State) : (s.complete).turnsTaken = s.turnsTaken := rfl

/-! ### `State.clearOutcome` -/

@[simp] theorem State.clearOutcome_cmd (s : State) : (s.clearOutcome).cmd = s.cmd := rfl
@[simp] theorem State.clearOutcome_phase (s : State) : (s.clearOutcome).phase = s.phase := rfl
@[simp] theorem State.clearOutcome_result (s : State) : (s.clearOutcome).result = .none := rfl
@[simp] theorem State.clearOutcome_detail (s : State) : (s.clearOutcome).detail = none := rfl
@[simp] theorem State.clearOutcome_statusClass (s : State) : (s.clearOutcome).statusClass = .none := rfl
@[simp] theorem State.clearOutcome_statusRaw (s : State) : (s.clearOutcome).statusRaw = 0x00 := rfl
@[simp] theorem State.clearOutcome_csumOut (s : State) : (s.clearOutcome).csumOut = s.csumOut := rfl
@[simp] theorem State.clearOutcome_reqTarget (s : State) : (s.clearOutcome).reqTarget = s.reqTarget := rfl
@[simp] theorem State.clearOutcome_reqSource (s : State) : (s.clearOutcome).reqSource = s.reqSource := rfl
@[simp] theorem State.clearOutcome_reqLen (s : State) : (s.clearOutcome).reqLen = s.reqLen := rfl
@[simp] theorem State.clearOutcome_txLen (s : State) : (s.clearOutcome).txLen = s.txLen := rfl
@[simp] theorem State.clearOutcome_rxCount (s : State) : (s.clearOutcome).rxCount = s.rxCount := rfl
@[simp] theorem State.clearOutcome_echoCount (s : State) : (s.clearOutcome).echoCount = s.echoCount := rfl
@[simp] theorem State.clearOutcome_payOff (s : State) : (s.clearOutcome).payOff = 0 := rfl
@[simp] theorem State.clearOutcome_payLen (s : State) : (s.clearOutcome).payLen = 0 := rfl
@[simp] theorem State.clearOutcome_mem (s : State) : (s.clearOutcome).mem = s.mem := rfl
@[simp] theorem State.clearOutcome_decNeed (s : State) : (s.clearOutcome).decNeed = s.decNeed := rfl
@[simp] theorem State.clearOutcome_decAcc (s : State) : (s.clearOutcome).decAcc = s.decAcc := rfl
@[simp] theorem State.clearOutcome_written (s : State) : (s.clearOutcome).written = s.written := rfl
@[simp] theorem State.clearOutcome_faultMark (s : State) : (s.clearOutcome).faultMark = s.faultMark := rfl
@[simp] theorem State.clearOutcome_txLog (s : State) : (s.clearOutcome).txLog = s.txLog := rfl
@[simp] theorem State.clearOutcome_rx (s : State) : (s.clearOutcome).rx = s.rx := rfl
@[simp] theorem State.clearOutcome_rxTaken (s : State) : (s.clearOutcome).rxTaken = s.rxTaken := rfl
@[simp] theorem State.clearOutcome_program (s : State) : (s.clearOutcome).program = s.program := rfl
@[simp] theorem State.clearOutcome_hostData (s : State) : (s.clearOutcome).hostData = s.hostData := rfl
@[simp] theorem State.clearOutcome_schedule (s : State) : (s.clearOutcome).schedule = s.schedule := rfl
@[simp] theorem State.clearOutcome_turnsTaken (s : State) : (s.clearOutcome).turnsTaken = s.turnsTaken := rfl

/-! ### `State.txWrite` -/

@[simp] theorem State.txWrite_cmd (f : List Byte) (s : State) : (s.txWrite f).cmd = s.cmd := rfl
@[simp] theorem State.txWrite_phase (f : List Byte) (s : State) : (s.txWrite f).phase = s.phase := rfl
@[simp] theorem State.txWrite_result (f : List Byte) (s : State) : (s.txWrite f).result = s.result := rfl
@[simp] theorem State.txWrite_detail (f : List Byte) (s : State) : (s.txWrite f).detail = s.detail := rfl
@[simp] theorem State.txWrite_statusClass (f : List Byte) (s : State) : (s.txWrite f).statusClass = s.statusClass := rfl
@[simp] theorem State.txWrite_statusRaw (f : List Byte) (s : State) : (s.txWrite f).statusRaw = s.statusRaw := rfl
@[simp] theorem State.txWrite_csumOut (f : List Byte) (s : State) : (s.txWrite f).csumOut = s.csumOut := rfl
@[simp] theorem State.txWrite_reqTarget (f : List Byte) (s : State) : (s.txWrite f).reqTarget = s.reqTarget := rfl
@[simp] theorem State.txWrite_reqSource (f : List Byte) (s : State) : (s.txWrite f).reqSource = s.reqSource := rfl
@[simp] theorem State.txWrite_reqLen (f : List Byte) (s : State) : (s.txWrite f).reqLen = s.reqLen := rfl
@[simp] theorem State.txWrite_txLen (f : List Byte) (s : State) : (s.txWrite f).txLen = s.txLen := rfl
@[simp] theorem State.txWrite_rxCount (f : List Byte) (s : State) : (s.txWrite f).rxCount = s.rxCount := rfl
@[simp] theorem State.txWrite_echoCount (f : List Byte) (s : State) : (s.txWrite f).echoCount = s.echoCount := rfl
@[simp] theorem State.txWrite_payOff (f : List Byte) (s : State) : (s.txWrite f).payOff = s.payOff := rfl
@[simp] theorem State.txWrite_payLen (f : List Byte) (s : State) : (s.txWrite f).payLen = s.payLen := rfl
@[simp] theorem State.txWrite_mem (f : List Byte) (s : State) : (s.txWrite f).mem = s.mem := rfl
@[simp] theorem State.txWrite_decNeed (f : List Byte) (s : State) : (s.txWrite f).decNeed = s.decNeed := rfl
@[simp] theorem State.txWrite_decAcc (f : List Byte) (s : State) : (s.txWrite f).decAcc = s.decAcc := rfl
@[simp] theorem State.txWrite_written (f : List Byte) (s : State) : (s.txWrite f).written = s.written := rfl
@[simp] theorem State.txWrite_faultMark (f : List Byte) (s : State) : (s.txWrite f).faultMark = s.faultMark := rfl
@[simp] theorem State.txWrite_txLog (f : List Byte) (s : State) : (s.txWrite f).txLog = s.txLog ++ [f] := rfl
@[simp] theorem State.txWrite_rx (f : List Byte) (s : State) : (s.txWrite f).rx = s.rx := rfl
@[simp] theorem State.txWrite_rxTaken (f : List Byte) (s : State) : (s.txWrite f).rxTaken = s.rxTaken := rfl
@[simp] theorem State.txWrite_program (f : List Byte) (s : State) : (s.txWrite f).program = s.program := rfl
@[simp] theorem State.txWrite_hostData (f : List Byte) (s : State) : (s.txWrite f).hostData = s.hostData := rfl
@[simp] theorem State.txWrite_schedule (f : List Byte) (s : State) : (s.txWrite f).schedule = s.schedule := rfl
@[simp] theorem State.txWrite_turnsTaken (f : List Byte) (s : State) : (s.txWrite f).turnsTaken = s.turnsTaken := rfl

/-! ### `State.rxConsume` -/

@[simp] theorem State.rxConsume_cmd (s : State) : (s.rxConsume).cmd = s.cmd := rfl
@[simp] theorem State.rxConsume_phase (s : State) : (s.rxConsume).phase = s.phase := rfl
@[simp] theorem State.rxConsume_result (s : State) : (s.rxConsume).result = s.result := rfl
@[simp] theorem State.rxConsume_detail (s : State) : (s.rxConsume).detail = s.detail := rfl
@[simp] theorem State.rxConsume_statusClass (s : State) : (s.rxConsume).statusClass = s.statusClass := rfl
@[simp] theorem State.rxConsume_statusRaw (s : State) : (s.rxConsume).statusRaw = s.statusRaw := rfl
@[simp] theorem State.rxConsume_csumOut (s : State) : (s.rxConsume).csumOut = s.csumOut := rfl
@[simp] theorem State.rxConsume_reqTarget (s : State) : (s.rxConsume).reqTarget = s.reqTarget := rfl
@[simp] theorem State.rxConsume_reqSource (s : State) : (s.rxConsume).reqSource = s.reqSource := rfl
@[simp] theorem State.rxConsume_reqLen (s : State) : (s.rxConsume).reqLen = s.reqLen := rfl
@[simp] theorem State.rxConsume_txLen (s : State) : (s.rxConsume).txLen = s.txLen := rfl
@[simp] theorem State.rxConsume_rxCount (s : State) : (s.rxConsume).rxCount = s.rxCount := rfl
@[simp] theorem State.rxConsume_echoCount (s : State) : (s.rxConsume).echoCount = s.echoCount := rfl
@[simp] theorem State.rxConsume_payOff (s : State) : (s.rxConsume).payOff = s.payOff := rfl
@[simp] theorem State.rxConsume_payLen (s : State) : (s.rxConsume).payLen = s.payLen := rfl
@[simp] theorem State.rxConsume_mem (s : State) : (s.rxConsume).mem = s.mem := rfl
@[simp] theorem State.rxConsume_decNeed (s : State) : (s.rxConsume).decNeed = s.decNeed := rfl
@[simp] theorem State.rxConsume_decAcc (s : State) : (s.rxConsume).decAcc = s.decAcc := rfl
@[simp] theorem State.rxConsume_written (s : State) : (s.rxConsume).written = s.written := rfl
@[simp] theorem State.rxConsume_faultMark (s : State) : (s.rxConsume).faultMark = s.faultMark := rfl
@[simp] theorem State.rxConsume_txLog (s : State) : (s.rxConsume).txLog = s.txLog := rfl
@[simp] theorem State.rxConsume_rx (s : State) : (s.rxConsume).rx = s.rx.tail := rfl
@[simp] theorem State.rxConsume_rxTaken (s : State) : (s.rxConsume).rxTaken = s.rxTaken + 1 := rfl
@[simp] theorem State.rxConsume_program (s : State) : (s.rxConsume).program = s.program := rfl
@[simp] theorem State.rxConsume_hostData (s : State) : (s.rxConsume).hostData = s.hostData := rfl
@[simp] theorem State.rxConsume_schedule (s : State) : (s.rxConsume).schedule = s.schedule := rfl
@[simp] theorem State.rxConsume_turnsTaken (s : State) : (s.rxConsume).turnsTaken = s.turnsTaken := rfl

/-! ### `State.storeTx` -/

@[simp] theorem State.storeTx_cmd (f : List Byte) (s : State) : (s.storeTx f).cmd = s.cmd := rfl
@[simp] theorem State.storeTx_phase (f : List Byte) (s : State) : (s.storeTx f).phase = s.phase := rfl
@[simp] theorem State.storeTx_result (f : List Byte) (s : State) : (s.storeTx f).result = s.result := rfl
@[simp] theorem State.storeTx_detail (f : List Byte) (s : State) : (s.storeTx f).detail = s.detail := rfl
@[simp] theorem State.storeTx_statusClass (f : List Byte) (s : State) : (s.storeTx f).statusClass = s.statusClass := rfl
@[simp] theorem State.storeTx_statusRaw (f : List Byte) (s : State) : (s.storeTx f).statusRaw = s.statusRaw := rfl
@[simp] theorem State.storeTx_csumOut (f : List Byte) (s : State) : (s.storeTx f).csumOut = f.getLastD 0x00 := rfl
@[simp] theorem State.storeTx_reqTarget (f : List Byte) (s : State) : (s.storeTx f).reqTarget = s.reqTarget := rfl
@[simp] theorem State.storeTx_reqSource (f : List Byte) (s : State) : (s.storeTx f).reqSource = s.reqSource := rfl
@[simp] theorem State.storeTx_reqLen (f : List Byte) (s : State) : (s.storeTx f).reqLen = s.reqLen := rfl
@[simp] theorem State.storeTx_txLen (f : List Byte) (s : State) : (s.storeTx f).txLen = BitVec.ofNat 16 f.length := rfl
@[simp] theorem State.storeTx_rxCount (f : List Byte) (s : State) : (s.storeTx f).rxCount = s.rxCount := rfl
@[simp] theorem State.storeTx_echoCount (f : List Byte) (s : State) : (s.storeTx f).echoCount = s.echoCount := rfl
@[simp] theorem State.storeTx_payOff (f : List Byte) (s : State) : (s.storeTx f).payOff = s.payOff := rfl
@[simp] theorem State.storeTx_payLen (f : List Byte) (s : State) : (s.storeTx f).payLen = s.payLen := rfl
@[simp] theorem State.storeTx_mem (f : List Byte) (s : State) : (s.storeTx f).mem = s.mem.writeBytes txBase f := rfl
@[simp] theorem State.storeTx_decNeed (f : List Byte) (s : State) : (s.storeTx f).decNeed = s.decNeed := rfl
@[simp] theorem State.storeTx_decAcc (f : List Byte) (s : State) : (s.storeTx f).decAcc = s.decAcc := rfl
@[simp] theorem State.storeTx_written (f : List Byte) (s : State) : (s.storeTx f).written = s.written := rfl
@[simp] theorem State.storeTx_faultMark (f : List Byte) (s : State) : (s.storeTx f).faultMark = s.faultMark := rfl
@[simp] theorem State.storeTx_txLog (f : List Byte) (s : State) : (s.storeTx f).txLog = s.txLog := rfl
@[simp] theorem State.storeTx_rx (f : List Byte) (s : State) : (s.storeTx f).rx = s.rx := rfl
@[simp] theorem State.storeTx_rxTaken (f : List Byte) (s : State) : (s.storeTx f).rxTaken = s.rxTaken := rfl
@[simp] theorem State.storeTx_program (f : List Byte) (s : State) : (s.storeTx f).program = s.program := rfl
@[simp] theorem State.storeTx_hostData (f : List Byte) (s : State) : (s.storeTx f).hostData = s.hostData := rfl
@[simp] theorem State.storeTx_schedule (f : List Byte) (s : State) : (s.storeTx f).schedule = s.schedule := rfl
@[simp] theorem State.storeTx_turnsTaken (f : List Byte) (s : State) : (s.storeTx f).turnsTaken = s.turnsTaken := rfl

/-! ### `State.decBegin` -/

@[simp] theorem State.decBegin_cmd (s : State) : (s.decBegin).cmd = s.cmd := rfl
@[simp] theorem State.decBegin_phase (s : State) : (s.decBegin).phase = s.phase := rfl
@[simp] theorem State.decBegin_result (s : State) : (s.decBegin).result = s.result := rfl
@[simp] theorem State.decBegin_detail (s : State) : (s.decBegin).detail = s.detail := rfl
@[simp] theorem State.decBegin_statusClass (s : State) : (s.decBegin).statusClass = s.statusClass := rfl
@[simp] theorem State.decBegin_statusRaw (s : State) : (s.decBegin).statusRaw = s.statusRaw := rfl
@[simp] theorem State.decBegin_csumOut (s : State) : (s.decBegin).csumOut = s.csumOut := rfl
@[simp] theorem State.decBegin_reqTarget (s : State) : (s.decBegin).reqTarget = s.reqTarget := rfl
@[simp] theorem State.decBegin_reqSource (s : State) : (s.decBegin).reqSource = s.reqSource := rfl
@[simp] theorem State.decBegin_reqLen (s : State) : (s.decBegin).reqLen = s.reqLen := rfl
@[simp] theorem State.decBegin_txLen (s : State) : (s.decBegin).txLen = s.txLen := rfl
@[simp] theorem State.decBegin_rxCount (s : State) : (s.decBegin).rxCount = 0 := rfl
@[simp] theorem State.decBegin_echoCount (s : State) : (s.decBegin).echoCount = s.echoCount := rfl
@[simp] theorem State.decBegin_payOff (s : State) : (s.decBegin).payOff = s.payOff := rfl
@[simp] theorem State.decBegin_payLen (s : State) : (s.decBegin).payLen = s.payLen := rfl
@[simp] theorem State.decBegin_mem (s : State) : (s.decBegin).mem = s.mem := rfl
@[simp] theorem State.decBegin_decNeed (s : State) : (s.decBegin).decNeed = 0 := rfl
@[simp] theorem State.decBegin_decAcc (s : State) : (s.decBegin).decAcc = 0x00 := rfl
@[simp] theorem State.decBegin_written (s : State) : (s.decBegin).written = s.written := rfl
@[simp] theorem State.decBegin_faultMark (s : State) : (s.decBegin).faultMark = s.faultMark := rfl
@[simp] theorem State.decBegin_txLog (s : State) : (s.decBegin).txLog = s.txLog := rfl
@[simp] theorem State.decBegin_rx (s : State) : (s.decBegin).rx = s.rx := rfl
@[simp] theorem State.decBegin_rxTaken (s : State) : (s.decBegin).rxTaken = s.rxTaken := rfl
@[simp] theorem State.decBegin_program (s : State) : (s.decBegin).program = s.program := rfl
@[simp] theorem State.decBegin_hostData (s : State) : (s.decBegin).hostData = s.hostData := rfl
@[simp] theorem State.decBegin_schedule (s : State) : (s.decBegin).schedule = s.schedule := rfl
@[simp] theorem State.decBegin_turnsTaken (s : State) : (s.decBegin).turnsTaken = s.turnsTaken := rfl

/-! ### `State.storeRx` -/

@[simp] theorem State.storeRx_cmd (r : Byte) (s : State) : (s.storeRx r).cmd = s.cmd := rfl
@[simp] theorem State.storeRx_phase (r : Byte) (s : State) : (s.storeRx r).phase = s.phase := rfl
@[simp] theorem State.storeRx_result (r : Byte) (s : State) : (s.storeRx r).result = s.result := rfl
@[simp] theorem State.storeRx_detail (r : Byte) (s : State) : (s.storeRx r).detail = s.detail := rfl
@[simp] theorem State.storeRx_statusClass (r : Byte) (s : State) : (s.storeRx r).statusClass = s.statusClass := rfl
@[simp] theorem State.storeRx_statusRaw (r : Byte) (s : State) : (s.storeRx r).statusRaw = s.statusRaw := rfl
@[simp] theorem State.storeRx_csumOut (r : Byte) (s : State) : (s.storeRx r).csumOut = s.csumOut := rfl
@[simp] theorem State.storeRx_reqTarget (r : Byte) (s : State) : (s.storeRx r).reqTarget = s.reqTarget := rfl
@[simp] theorem State.storeRx_reqSource (r : Byte) (s : State) : (s.storeRx r).reqSource = s.reqSource := rfl
@[simp] theorem State.storeRx_reqLen (r : Byte) (s : State) : (s.storeRx r).reqLen = s.reqLen := rfl
@[simp] theorem State.storeRx_txLen (r : Byte) (s : State) : (s.storeRx r).txLen = s.txLen := rfl
@[simp] theorem State.storeRx_rxCount (r : Byte) (s : State) : (s.storeRx r).rxCount = s.rxCount + 1 := rfl
@[simp] theorem State.storeRx_echoCount (r : Byte) (s : State) : (s.storeRx r).echoCount = s.echoCount := rfl
@[simp] theorem State.storeRx_payOff (r : Byte) (s : State) : (s.storeRx r).payOff = s.payOff := rfl
@[simp] theorem State.storeRx_payLen (r : Byte) (s : State) : (s.storeRx r).payLen = s.payLen := rfl
@[simp] theorem State.storeRx_mem (r : Byte) (s : State) : (s.storeRx r).mem = s.mem.write (rxBase + s.rxCount.toNat) r := rfl
@[simp] theorem State.storeRx_decNeed (r : Byte) (s : State) : (s.storeRx r).decNeed = s.decNeed := rfl
@[simp] theorem State.storeRx_decAcc (r : Byte) (s : State) : (s.storeRx r).decAcc = s.decAcc ^^^ r := rfl
@[simp] theorem State.storeRx_written (r : Byte) (s : State) : (s.storeRx r).written = s.written := rfl
@[simp] theorem State.storeRx_faultMark (r : Byte) (s : State) : (s.storeRx r).faultMark = s.faultMark := rfl
@[simp] theorem State.storeRx_txLog (r : Byte) (s : State) : (s.storeRx r).txLog = s.txLog := rfl
@[simp] theorem State.storeRx_rx (r : Byte) (s : State) : (s.storeRx r).rx = s.rx := rfl
@[simp] theorem State.storeRx_rxTaken (r : Byte) (s : State) : (s.storeRx r).rxTaken = s.rxTaken := rfl
@[simp] theorem State.storeRx_program (r : Byte) (s : State) : (s.storeRx r).program = s.program := rfl
@[simp] theorem State.storeRx_hostData (r : Byte) (s : State) : (s.storeRx r).hostData = s.hostData := rfl
@[simp] theorem State.storeRx_schedule (r : Byte) (s : State) : (s.storeRx r).schedule = s.schedule := rfl
@[simp] theorem State.storeRx_turnsTaken (r : Byte) (s : State) : (s.storeRx r).turnsTaken = s.turnsTaken := rfl

/-! ### `State.setNeed` -/

@[simp] theorem State.setNeed_cmd (n : Half) (s : State) : (s.setNeed n).cmd = s.cmd := rfl
@[simp] theorem State.setNeed_phase (n : Half) (s : State) : (s.setNeed n).phase = s.phase := rfl
@[simp] theorem State.setNeed_result (n : Half) (s : State) : (s.setNeed n).result = s.result := rfl
@[simp] theorem State.setNeed_detail (n : Half) (s : State) : (s.setNeed n).detail = s.detail := rfl
@[simp] theorem State.setNeed_statusClass (n : Half) (s : State) : (s.setNeed n).statusClass = s.statusClass := rfl
@[simp] theorem State.setNeed_statusRaw (n : Half) (s : State) : (s.setNeed n).statusRaw = s.statusRaw := rfl
@[simp] theorem State.setNeed_csumOut (n : Half) (s : State) : (s.setNeed n).csumOut = s.csumOut := rfl
@[simp] theorem State.setNeed_reqTarget (n : Half) (s : State) : (s.setNeed n).reqTarget = s.reqTarget := rfl
@[simp] theorem State.setNeed_reqSource (n : Half) (s : State) : (s.setNeed n).reqSource = s.reqSource := rfl
@[simp] theorem State.setNeed_reqLen (n : Half) (s : State) : (s.setNeed n).reqLen = s.reqLen := rfl
@[simp] theorem State.setNeed_txLen (n : Half) (s : State) : (s.setNeed n).txLen = s.txLen := rfl
@[simp] theorem State.setNeed_rxCount (n : Half) (s : State) : (s.setNeed n).rxCount = s.rxCount := rfl
@[simp] theorem State.setNeed_echoCount (n : Half) (s : State) : (s.setNeed n).echoCount = s.echoCount := rfl
@[simp] theorem State.setNeed_payOff (n : Half) (s : State) : (s.setNeed n).payOff = s.payOff := rfl
@[simp] theorem State.setNeed_payLen (n : Half) (s : State) : (s.setNeed n).payLen = s.payLen := rfl
@[simp] theorem State.setNeed_mem (n : Half) (s : State) : (s.setNeed n).mem = s.mem := rfl
@[simp] theorem State.setNeed_decNeed (n : Half) (s : State) : (s.setNeed n).decNeed = n := rfl
@[simp] theorem State.setNeed_decAcc (n : Half) (s : State) : (s.setNeed n).decAcc = s.decAcc := rfl
@[simp] theorem State.setNeed_written (n : Half) (s : State) : (s.setNeed n).written = s.written := rfl
@[simp] theorem State.setNeed_faultMark (n : Half) (s : State) : (s.setNeed n).faultMark = s.faultMark := rfl
@[simp] theorem State.setNeed_txLog (n : Half) (s : State) : (s.setNeed n).txLog = s.txLog := rfl
@[simp] theorem State.setNeed_rx (n : Half) (s : State) : (s.setNeed n).rx = s.rx := rfl
@[simp] theorem State.setNeed_rxTaken (n : Half) (s : State) : (s.setNeed n).rxTaken = s.rxTaken := rfl
@[simp] theorem State.setNeed_program (n : Half) (s : State) : (s.setNeed n).program = s.program := rfl
@[simp] theorem State.setNeed_hostData (n : Half) (s : State) : (s.setNeed n).hostData = s.hostData := rfl
@[simp] theorem State.setNeed_schedule (n : Half) (s : State) : (s.setNeed n).schedule = s.schedule := rfl
@[simp] theorem State.setNeed_turnsTaken (n : Half) (s : State) : (s.setNeed n).turnsTaken = s.turnsTaken := rfl

/-! ### `State.setReqTarget` -/

@[simp] theorem State.setReqTarget_cmd (b : Byte) (s : State) : (s.setReqTarget b).cmd = s.cmd := rfl
@[simp] theorem State.setReqTarget_phase (b : Byte) (s : State) : (s.setReqTarget b).phase = s.phase := rfl
@[simp] theorem State.setReqTarget_result (b : Byte) (s : State) : (s.setReqTarget b).result = s.result := rfl
@[simp] theorem State.setReqTarget_detail (b : Byte) (s : State) : (s.setReqTarget b).detail = s.detail := rfl
@[simp] theorem State.setReqTarget_statusClass (b : Byte) (s : State) : (s.setReqTarget b).statusClass = s.statusClass := rfl
@[simp] theorem State.setReqTarget_statusRaw (b : Byte) (s : State) : (s.setReqTarget b).statusRaw = s.statusRaw := rfl
@[simp] theorem State.setReqTarget_csumOut (b : Byte) (s : State) : (s.setReqTarget b).csumOut = s.csumOut := rfl
@[simp] theorem State.setReqTarget_reqTarget (b : Byte) (s : State) : (s.setReqTarget b).reqTarget = b := rfl
@[simp] theorem State.setReqTarget_reqSource (b : Byte) (s : State) : (s.setReqTarget b).reqSource = s.reqSource := rfl
@[simp] theorem State.setReqTarget_reqLen (b : Byte) (s : State) : (s.setReqTarget b).reqLen = s.reqLen := rfl
@[simp] theorem State.setReqTarget_txLen (b : Byte) (s : State) : (s.setReqTarget b).txLen = s.txLen := rfl
@[simp] theorem State.setReqTarget_rxCount (b : Byte) (s : State) : (s.setReqTarget b).rxCount = s.rxCount := rfl
@[simp] theorem State.setReqTarget_echoCount (b : Byte) (s : State) : (s.setReqTarget b).echoCount = s.echoCount := rfl
@[simp] theorem State.setReqTarget_payOff (b : Byte) (s : State) : (s.setReqTarget b).payOff = s.payOff := rfl
@[simp] theorem State.setReqTarget_payLen (b : Byte) (s : State) : (s.setReqTarget b).payLen = s.payLen := rfl
@[simp] theorem State.setReqTarget_mem (b : Byte) (s : State) : (s.setReqTarget b).mem = s.mem := rfl
@[simp] theorem State.setReqTarget_decNeed (b : Byte) (s : State) : (s.setReqTarget b).decNeed = s.decNeed := rfl
@[simp] theorem State.setReqTarget_decAcc (b : Byte) (s : State) : (s.setReqTarget b).decAcc = s.decAcc := rfl
@[simp] theorem State.setReqTarget_written (b : Byte) (s : State) : (s.setReqTarget b).written = s.written.insert RegName.reqTarget.addr := rfl
@[simp] theorem State.setReqTarget_faultMark (b : Byte) (s : State) : (s.setReqTarget b).faultMark = s.faultMark := rfl
@[simp] theorem State.setReqTarget_txLog (b : Byte) (s : State) : (s.setReqTarget b).txLog = s.txLog := rfl
@[simp] theorem State.setReqTarget_rx (b : Byte) (s : State) : (s.setReqTarget b).rx = s.rx := rfl
@[simp] theorem State.setReqTarget_rxTaken (b : Byte) (s : State) : (s.setReqTarget b).rxTaken = s.rxTaken := rfl
@[simp] theorem State.setReqTarget_program (b : Byte) (s : State) : (s.setReqTarget b).program = s.program := rfl
@[simp] theorem State.setReqTarget_hostData (b : Byte) (s : State) : (s.setReqTarget b).hostData = s.hostData := rfl
@[simp] theorem State.setReqTarget_schedule (b : Byte) (s : State) : (s.setReqTarget b).schedule = s.schedule := rfl
@[simp] theorem State.setReqTarget_turnsTaken (b : Byte) (s : State) : (s.setReqTarget b).turnsTaken = s.turnsTaken := rfl

/-! ### `State.setReqSource` -/

@[simp] theorem State.setReqSource_cmd (b : Byte) (s : State) : (s.setReqSource b).cmd = s.cmd := rfl
@[simp] theorem State.setReqSource_phase (b : Byte) (s : State) : (s.setReqSource b).phase = s.phase := rfl
@[simp] theorem State.setReqSource_result (b : Byte) (s : State) : (s.setReqSource b).result = s.result := rfl
@[simp] theorem State.setReqSource_detail (b : Byte) (s : State) : (s.setReqSource b).detail = s.detail := rfl
@[simp] theorem State.setReqSource_statusClass (b : Byte) (s : State) : (s.setReqSource b).statusClass = s.statusClass := rfl
@[simp] theorem State.setReqSource_statusRaw (b : Byte) (s : State) : (s.setReqSource b).statusRaw = s.statusRaw := rfl
@[simp] theorem State.setReqSource_csumOut (b : Byte) (s : State) : (s.setReqSource b).csumOut = s.csumOut := rfl
@[simp] theorem State.setReqSource_reqTarget (b : Byte) (s : State) : (s.setReqSource b).reqTarget = s.reqTarget := rfl
@[simp] theorem State.setReqSource_reqSource (b : Byte) (s : State) : (s.setReqSource b).reqSource = b := rfl
@[simp] theorem State.setReqSource_reqLen (b : Byte) (s : State) : (s.setReqSource b).reqLen = s.reqLen := rfl
@[simp] theorem State.setReqSource_txLen (b : Byte) (s : State) : (s.setReqSource b).txLen = s.txLen := rfl
@[simp] theorem State.setReqSource_rxCount (b : Byte) (s : State) : (s.setReqSource b).rxCount = s.rxCount := rfl
@[simp] theorem State.setReqSource_echoCount (b : Byte) (s : State) : (s.setReqSource b).echoCount = s.echoCount := rfl
@[simp] theorem State.setReqSource_payOff (b : Byte) (s : State) : (s.setReqSource b).payOff = s.payOff := rfl
@[simp] theorem State.setReqSource_payLen (b : Byte) (s : State) : (s.setReqSource b).payLen = s.payLen := rfl
@[simp] theorem State.setReqSource_mem (b : Byte) (s : State) : (s.setReqSource b).mem = s.mem := rfl
@[simp] theorem State.setReqSource_decNeed (b : Byte) (s : State) : (s.setReqSource b).decNeed = s.decNeed := rfl
@[simp] theorem State.setReqSource_decAcc (b : Byte) (s : State) : (s.setReqSource b).decAcc = s.decAcc := rfl
@[simp] theorem State.setReqSource_written (b : Byte) (s : State) : (s.setReqSource b).written = s.written.insert RegName.reqSource.addr := rfl
@[simp] theorem State.setReqSource_faultMark (b : Byte) (s : State) : (s.setReqSource b).faultMark = s.faultMark := rfl
@[simp] theorem State.setReqSource_txLog (b : Byte) (s : State) : (s.setReqSource b).txLog = s.txLog := rfl
@[simp] theorem State.setReqSource_rx (b : Byte) (s : State) : (s.setReqSource b).rx = s.rx := rfl
@[simp] theorem State.setReqSource_rxTaken (b : Byte) (s : State) : (s.setReqSource b).rxTaken = s.rxTaken := rfl
@[simp] theorem State.setReqSource_program (b : Byte) (s : State) : (s.setReqSource b).program = s.program := rfl
@[simp] theorem State.setReqSource_hostData (b : Byte) (s : State) : (s.setReqSource b).hostData = s.hostData := rfl
@[simp] theorem State.setReqSource_schedule (b : Byte) (s : State) : (s.setReqSource b).schedule = s.schedule := rfl
@[simp] theorem State.setReqSource_turnsTaken (b : Byte) (s : State) : (s.setReqSource b).turnsTaken = s.turnsTaken := rfl

/-! ### `State.setReqLen` -/

@[simp] theorem State.setReqLen_cmd (b : Byte) (s : State) : (s.setReqLen b).cmd = s.cmd := rfl
@[simp] theorem State.setReqLen_phase (b : Byte) (s : State) : (s.setReqLen b).phase = s.phase := rfl
@[simp] theorem State.setReqLen_result (b : Byte) (s : State) : (s.setReqLen b).result = s.result := rfl
@[simp] theorem State.setReqLen_detail (b : Byte) (s : State) : (s.setReqLen b).detail = s.detail := rfl
@[simp] theorem State.setReqLen_statusClass (b : Byte) (s : State) : (s.setReqLen b).statusClass = s.statusClass := rfl
@[simp] theorem State.setReqLen_statusRaw (b : Byte) (s : State) : (s.setReqLen b).statusRaw = s.statusRaw := rfl
@[simp] theorem State.setReqLen_csumOut (b : Byte) (s : State) : (s.setReqLen b).csumOut = s.csumOut := rfl
@[simp] theorem State.setReqLen_reqTarget (b : Byte) (s : State) : (s.setReqLen b).reqTarget = s.reqTarget := rfl
@[simp] theorem State.setReqLen_reqSource (b : Byte) (s : State) : (s.setReqLen b).reqSource = s.reqSource := rfl
@[simp] theorem State.setReqLen_reqLen (b : Byte) (s : State) : (s.setReqLen b).reqLen = b := rfl
@[simp] theorem State.setReqLen_txLen (b : Byte) (s : State) : (s.setReqLen b).txLen = s.txLen := rfl
@[simp] theorem State.setReqLen_rxCount (b : Byte) (s : State) : (s.setReqLen b).rxCount = s.rxCount := rfl
@[simp] theorem State.setReqLen_echoCount (b : Byte) (s : State) : (s.setReqLen b).echoCount = s.echoCount := rfl
@[simp] theorem State.setReqLen_payOff (b : Byte) (s : State) : (s.setReqLen b).payOff = s.payOff := rfl
@[simp] theorem State.setReqLen_payLen (b : Byte) (s : State) : (s.setReqLen b).payLen = s.payLen := rfl
@[simp] theorem State.setReqLen_mem (b : Byte) (s : State) : (s.setReqLen b).mem = s.mem := rfl
@[simp] theorem State.setReqLen_decNeed (b : Byte) (s : State) : (s.setReqLen b).decNeed = s.decNeed := rfl
@[simp] theorem State.setReqLen_decAcc (b : Byte) (s : State) : (s.setReqLen b).decAcc = s.decAcc := rfl
@[simp] theorem State.setReqLen_written (b : Byte) (s : State) : (s.setReqLen b).written = s.written.insert RegName.reqLen.addr := rfl
@[simp] theorem State.setReqLen_faultMark (b : Byte) (s : State) : (s.setReqLen b).faultMark = s.faultMark := rfl
@[simp] theorem State.setReqLen_txLog (b : Byte) (s : State) : (s.setReqLen b).txLog = s.txLog := rfl
@[simp] theorem State.setReqLen_rx (b : Byte) (s : State) : (s.setReqLen b).rx = s.rx := rfl
@[simp] theorem State.setReqLen_rxTaken (b : Byte) (s : State) : (s.setReqLen b).rxTaken = s.rxTaken := rfl
@[simp] theorem State.setReqLen_program (b : Byte) (s : State) : (s.setReqLen b).program = s.program := rfl
@[simp] theorem State.setReqLen_hostData (b : Byte) (s : State) : (s.setReqLen b).hostData = s.hostData := rfl
@[simp] theorem State.setReqLen_schedule (b : Byte) (s : State) : (s.setReqLen b).schedule = s.schedule := rfl
@[simp] theorem State.setReqLen_turnsTaken (b : Byte) (s : State) : (s.setReqLen b).turnsTaken = s.turnsTaken := rfl

/-! ### `State.setReqPayload` -/

@[simp] theorem State.setReqPayload_cmd (i : Nat) (b : Byte) (s : State) : (s.setReqPayload i b).cmd = s.cmd := rfl
@[simp] theorem State.setReqPayload_phase (i : Nat) (b : Byte) (s : State) : (s.setReqPayload i b).phase = s.phase := rfl
@[simp] theorem State.setReqPayload_result (i : Nat) (b : Byte) (s : State) : (s.setReqPayload i b).result = s.result := rfl
@[simp] theorem State.setReqPayload_detail (i : Nat) (b : Byte) (s : State) : (s.setReqPayload i b).detail = s.detail := rfl
@[simp] theorem State.setReqPayload_statusClass (i : Nat) (b : Byte) (s : State) : (s.setReqPayload i b).statusClass = s.statusClass := rfl
@[simp] theorem State.setReqPayload_statusRaw (i : Nat) (b : Byte) (s : State) : (s.setReqPayload i b).statusRaw = s.statusRaw := rfl
@[simp] theorem State.setReqPayload_csumOut (i : Nat) (b : Byte) (s : State) : (s.setReqPayload i b).csumOut = s.csumOut := rfl
@[simp] theorem State.setReqPayload_reqTarget (i : Nat) (b : Byte) (s : State) : (s.setReqPayload i b).reqTarget = s.reqTarget := rfl
@[simp] theorem State.setReqPayload_reqSource (i : Nat) (b : Byte) (s : State) : (s.setReqPayload i b).reqSource = s.reqSource := rfl
@[simp] theorem State.setReqPayload_reqLen (i : Nat) (b : Byte) (s : State) : (s.setReqPayload i b).reqLen = s.reqLen := rfl
@[simp] theorem State.setReqPayload_txLen (i : Nat) (b : Byte) (s : State) : (s.setReqPayload i b).txLen = s.txLen := rfl
@[simp] theorem State.setReqPayload_rxCount (i : Nat) (b : Byte) (s : State) : (s.setReqPayload i b).rxCount = s.rxCount := rfl
@[simp] theorem State.setReqPayload_echoCount (i : Nat) (b : Byte) (s : State) : (s.setReqPayload i b).echoCount = s.echoCount := rfl
@[simp] theorem State.setReqPayload_payOff (i : Nat) (b : Byte) (s : State) : (s.setReqPayload i b).payOff = s.payOff := rfl
@[simp] theorem State.setReqPayload_payLen (i : Nat) (b : Byte) (s : State) : (s.setReqPayload i b).payLen = s.payLen := rfl
@[simp] theorem State.setReqPayload_mem (i : Nat) (b : Byte) (s : State) : (s.setReqPayload i b).mem = s.mem.write (reqBase + i) b := rfl
@[simp] theorem State.setReqPayload_decNeed (i : Nat) (b : Byte) (s : State) : (s.setReqPayload i b).decNeed = s.decNeed := rfl
@[simp] theorem State.setReqPayload_decAcc (i : Nat) (b : Byte) (s : State) : (s.setReqPayload i b).decAcc = s.decAcc := rfl
@[simp] theorem State.setReqPayload_written (i : Nat) (b : Byte) (s : State) : (s.setReqPayload i b).written = s.written.insert (reqBase + i) := rfl
@[simp] theorem State.setReqPayload_faultMark (i : Nat) (b : Byte) (s : State) : (s.setReqPayload i b).faultMark = s.faultMark := rfl
@[simp] theorem State.setReqPayload_txLog (i : Nat) (b : Byte) (s : State) : (s.setReqPayload i b).txLog = s.txLog := rfl
@[simp] theorem State.setReqPayload_rx (i : Nat) (b : Byte) (s : State) : (s.setReqPayload i b).rx = s.rx := rfl
@[simp] theorem State.setReqPayload_rxTaken (i : Nat) (b : Byte) (s : State) : (s.setReqPayload i b).rxTaken = s.rxTaken := rfl
@[simp] theorem State.setReqPayload_program (i : Nat) (b : Byte) (s : State) : (s.setReqPayload i b).program = s.program := rfl
@[simp] theorem State.setReqPayload_hostData (i : Nat) (b : Byte) (s : State) : (s.setReqPayload i b).hostData = s.hostData := rfl
@[simp] theorem State.setReqPayload_schedule (i : Nat) (b : Byte) (s : State) : (s.setReqPayload i b).schedule = s.schedule := rfl
@[simp] theorem State.setReqPayload_turnsTaken (i : Nat) (b : Byte) (s : State) : (s.setReqPayload i b).turnsTaken = s.turnsTaken := rfl

/-! ### `State.takeTurn` -/

@[simp] theorem State.takeTurn_cmd (s : State) : (s.takeTurn).cmd = s.cmd := rfl
@[simp] theorem State.takeTurn_phase (s : State) : (s.takeTurn).phase = s.phase := rfl
@[simp] theorem State.takeTurn_result (s : State) : (s.takeTurn).result = s.result := rfl
@[simp] theorem State.takeTurn_detail (s : State) : (s.takeTurn).detail = s.detail := rfl
@[simp] theorem State.takeTurn_statusClass (s : State) : (s.takeTurn).statusClass = s.statusClass := rfl
@[simp] theorem State.takeTurn_statusRaw (s : State) : (s.takeTurn).statusRaw = s.statusRaw := rfl
@[simp] theorem State.takeTurn_csumOut (s : State) : (s.takeTurn).csumOut = s.csumOut := rfl
@[simp] theorem State.takeTurn_reqTarget (s : State) : (s.takeTurn).reqTarget = s.reqTarget := rfl
@[simp] theorem State.takeTurn_reqSource (s : State) : (s.takeTurn).reqSource = s.reqSource := rfl
@[simp] theorem State.takeTurn_reqLen (s : State) : (s.takeTurn).reqLen = s.reqLen := rfl
@[simp] theorem State.takeTurn_txLen (s : State) : (s.takeTurn).txLen = s.txLen := rfl
@[simp] theorem State.takeTurn_rxCount (s : State) : (s.takeTurn).rxCount = s.rxCount := rfl
@[simp] theorem State.takeTurn_echoCount (s : State) : (s.takeTurn).echoCount = s.echoCount := rfl
@[simp] theorem State.takeTurn_payOff (s : State) : (s.takeTurn).payOff = s.payOff := rfl
@[simp] theorem State.takeTurn_payLen (s : State) : (s.takeTurn).payLen = s.payLen := rfl
@[simp] theorem State.takeTurn_mem (s : State) : (s.takeTurn).mem = s.mem := rfl
@[simp] theorem State.takeTurn_decNeed (s : State) : (s.takeTurn).decNeed = s.decNeed := rfl
@[simp] theorem State.takeTurn_decAcc (s : State) : (s.takeTurn).decAcc = s.decAcc := rfl
@[simp] theorem State.takeTurn_written (s : State) : (s.takeTurn).written = s.written := rfl
@[simp] theorem State.takeTurn_faultMark (s : State) : (s.takeTurn).faultMark = s.faultMark := rfl
@[simp] theorem State.takeTurn_txLog (s : State) : (s.takeTurn).txLog = s.txLog := rfl
@[simp] theorem State.takeTurn_rx (s : State) : (s.takeTurn).rx = s.rx := rfl
@[simp] theorem State.takeTurn_rxTaken (s : State) : (s.takeTurn).rxTaken = s.rxTaken := rfl
@[simp] theorem State.takeTurn_program (s : State) : (s.takeTurn).program = s.program := rfl
@[simp] theorem State.takeTurn_hostData (s : State) : (s.takeTurn).hostData = s.hostData := rfl
@[simp] theorem State.takeTurn_schedule (s : State) : (s.takeTurn).schedule = s.schedule.tail := rfl
@[simp] theorem State.takeTurn_turnsTaken (s : State) : (s.takeTurn).turnsTaken = s.turnsTaken + 1 := rfl

/-! ### `State.popProgram` -/

@[simp] theorem State.popProgram_cmd (s : State) : (s.popProgram).cmd = s.cmd := rfl
@[simp] theorem State.popProgram_phase (s : State) : (s.popProgram).phase = s.phase := rfl
@[simp] theorem State.popProgram_result (s : State) : (s.popProgram).result = s.result := rfl
@[simp] theorem State.popProgram_detail (s : State) : (s.popProgram).detail = s.detail := rfl
@[simp] theorem State.popProgram_statusClass (s : State) : (s.popProgram).statusClass = s.statusClass := rfl
@[simp] theorem State.popProgram_statusRaw (s : State) : (s.popProgram).statusRaw = s.statusRaw := rfl
@[simp] theorem State.popProgram_csumOut (s : State) : (s.popProgram).csumOut = s.csumOut := rfl
@[simp] theorem State.popProgram_reqTarget (s : State) : (s.popProgram).reqTarget = s.reqTarget := rfl
@[simp] theorem State.popProgram_reqSource (s : State) : (s.popProgram).reqSource = s.reqSource := rfl
@[simp] theorem State.popProgram_reqLen (s : State) : (s.popProgram).reqLen = s.reqLen := rfl
@[simp] theorem State.popProgram_txLen (s : State) : (s.popProgram).txLen = s.txLen := rfl
@[simp] theorem State.popProgram_rxCount (s : State) : (s.popProgram).rxCount = s.rxCount := rfl
@[simp] theorem State.popProgram_echoCount (s : State) : (s.popProgram).echoCount = s.echoCount := rfl
@[simp] theorem State.popProgram_payOff (s : State) : (s.popProgram).payOff = s.payOff := rfl
@[simp] theorem State.popProgram_payLen (s : State) : (s.popProgram).payLen = s.payLen := rfl
@[simp] theorem State.popProgram_mem (s : State) : (s.popProgram).mem = s.mem := rfl
@[simp] theorem State.popProgram_decNeed (s : State) : (s.popProgram).decNeed = s.decNeed := rfl
@[simp] theorem State.popProgram_decAcc (s : State) : (s.popProgram).decAcc = s.decAcc := rfl
@[simp] theorem State.popProgram_written (s : State) : (s.popProgram).written = s.written := rfl
@[simp] theorem State.popProgram_faultMark (s : State) : (s.popProgram).faultMark = s.faultMark := rfl
@[simp] theorem State.popProgram_txLog (s : State) : (s.popProgram).txLog = s.txLog := rfl
@[simp] theorem State.popProgram_rx (s : State) : (s.popProgram).rx = s.rx := rfl
@[simp] theorem State.popProgram_rxTaken (s : State) : (s.popProgram).rxTaken = s.rxTaken := rfl
@[simp] theorem State.popProgram_program (s : State) : (s.popProgram).program = s.program.tail := rfl
@[simp] theorem State.popProgram_hostData (s : State) : (s.popProgram).hostData = s.hostData := rfl
@[simp] theorem State.popProgram_schedule (s : State) : (s.popProgram).schedule = s.schedule := rfl
@[simp] theorem State.popProgram_turnsTaken (s : State) : (s.popProgram).turnsTaken = s.turnsTaken := rfl

/-! ### `State.beginDecode` -/

@[simp] theorem State.beginDecode_cmd (s : State) : (s.beginDecode).cmd = s.cmd := rfl
@[simp] theorem State.beginDecode_phase (s : State) : (s.beginDecode).phase = .decoding := rfl
@[simp] theorem State.beginDecode_result (s : State) : (s.beginDecode).result = s.result := rfl
@[simp] theorem State.beginDecode_detail (s : State) : (s.beginDecode).detail = s.detail := rfl
@[simp] theorem State.beginDecode_statusClass (s : State) : (s.beginDecode).statusClass = s.statusClass := rfl
@[simp] theorem State.beginDecode_statusRaw (s : State) : (s.beginDecode).statusRaw = s.statusRaw := rfl
@[simp] theorem State.beginDecode_csumOut (s : State) : (s.beginDecode).csumOut = s.csumOut := rfl
@[simp] theorem State.beginDecode_reqTarget (s : State) : (s.beginDecode).reqTarget = s.reqTarget := rfl
@[simp] theorem State.beginDecode_reqSource (s : State) : (s.beginDecode).reqSource = s.reqSource := rfl
@[simp] theorem State.beginDecode_reqLen (s : State) : (s.beginDecode).reqLen = s.reqLen := rfl
@[simp] theorem State.beginDecode_txLen (s : State) : (s.beginDecode).txLen = s.txLen := rfl
@[simp] theorem State.beginDecode_rxCount (s : State) : (s.beginDecode).rxCount = 0 := rfl
@[simp] theorem State.beginDecode_echoCount (s : State) : (s.beginDecode).echoCount = s.echoCount := rfl
@[simp] theorem State.beginDecode_payOff (s : State) : (s.beginDecode).payOff = s.payOff := rfl
@[simp] theorem State.beginDecode_payLen (s : State) : (s.beginDecode).payLen = s.payLen := rfl
@[simp] theorem State.beginDecode_mem (s : State) : (s.beginDecode).mem = s.mem := rfl
@[simp] theorem State.beginDecode_decNeed (s : State) : (s.beginDecode).decNeed = 0 := rfl
@[simp] theorem State.beginDecode_decAcc (s : State) : (s.beginDecode).decAcc = 0x00 := rfl
@[simp] theorem State.beginDecode_written (s : State) : (s.beginDecode).written = s.written := rfl
@[simp] theorem State.beginDecode_faultMark (s : State) : (s.beginDecode).faultMark = s.faultMark := rfl
@[simp] theorem State.beginDecode_txLog (s : State) : (s.beginDecode).txLog = s.txLog := rfl
@[simp] theorem State.beginDecode_rx (s : State) : (s.beginDecode).rx = s.rx := rfl
@[simp] theorem State.beginDecode_rxTaken (s : State) : (s.beginDecode).rxTaken = s.rxTaken := rfl
@[simp] theorem State.beginDecode_program (s : State) : (s.beginDecode).program = s.program := rfl
@[simp] theorem State.beginDecode_hostData (s : State) : (s.beginDecode).hostData = s.hostData := rfl
@[simp] theorem State.beginDecode_schedule (s : State) : (s.beginDecode).schedule = s.schedule := rfl
@[simp] theorem State.beginDecode_turnsTaken (s : State) : (s.beginDecode).turnsTaken = s.turnsTaken := rfl

/-! ### `State.transmit` -/

@[simp] theorem State.transmit_cmd (f : List Byte) (s : State) : (s.transmit f).cmd = s.cmd := rfl
@[simp] theorem State.transmit_phase (f : List Byte) (s : State) : (s.transmit f).phase = .awaitingEcho := rfl
@[simp] theorem State.transmit_result (f : List Byte) (s : State) : (s.transmit f).result = s.result := rfl
@[simp] theorem State.transmit_detail (f : List Byte) (s : State) : (s.transmit f).detail = s.detail := rfl
@[simp] theorem State.transmit_statusClass (f : List Byte) (s : State) : (s.transmit f).statusClass = s.statusClass := rfl
@[simp] theorem State.transmit_statusRaw (f : List Byte) (s : State) : (s.transmit f).statusRaw = s.statusRaw := rfl
@[simp] theorem State.transmit_csumOut (f : List Byte) (s : State) : (s.transmit f).csumOut = f.getLastD 0x00 := rfl
@[simp] theorem State.transmit_reqTarget (f : List Byte) (s : State) : (s.transmit f).reqTarget = s.reqTarget := rfl
@[simp] theorem State.transmit_reqSource (f : List Byte) (s : State) : (s.transmit f).reqSource = s.reqSource := rfl
@[simp] theorem State.transmit_reqLen (f : List Byte) (s : State) : (s.transmit f).reqLen = s.reqLen := rfl
@[simp] theorem State.transmit_txLen (f : List Byte) (s : State) : (s.transmit f).txLen = BitVec.ofNat 16 f.length := rfl
@[simp] theorem State.transmit_rxCount (f : List Byte) (s : State) : (s.transmit f).rxCount = 0 := rfl
@[simp] theorem State.transmit_echoCount (f : List Byte) (s : State) : (s.transmit f).echoCount = 0 := rfl
@[simp] theorem State.transmit_payOff (f : List Byte) (s : State) : (s.transmit f).payOff = s.payOff := rfl
@[simp] theorem State.transmit_payLen (f : List Byte) (s : State) : (s.transmit f).payLen = s.payLen := rfl
@[simp] theorem State.transmit_mem (f : List Byte) (s : State) : (s.transmit f).mem = s.mem.writeBytes txBase f := rfl
@[simp] theorem State.transmit_decNeed (f : List Byte) (s : State) : (s.transmit f).decNeed = 0 := rfl
@[simp] theorem State.transmit_decAcc (f : List Byte) (s : State) : (s.transmit f).decAcc = 0x00 := rfl
@[simp] theorem State.transmit_written (f : List Byte) (s : State) : (s.transmit f).written = s.written := rfl
@[simp] theorem State.transmit_faultMark (f : List Byte) (s : State) : (s.transmit f).faultMark = s.faultMark := rfl
@[simp] theorem State.transmit_txLog (f : List Byte) (s : State) : (s.transmit f).txLog = s.txLog ++ [f] := rfl
@[simp] theorem State.transmit_rx (f : List Byte) (s : State) : (s.transmit f).rx = s.rx := rfl
@[simp] theorem State.transmit_rxTaken (f : List Byte) (s : State) : (s.transmit f).rxTaken = s.rxTaken := rfl
@[simp] theorem State.transmit_program (f : List Byte) (s : State) : (s.transmit f).program = s.program := rfl
@[simp] theorem State.transmit_hostData (f : List Byte) (s : State) : (s.transmit f).hostData = s.hostData := rfl
@[simp] theorem State.transmit_schedule (f : List Byte) (s : State) : (s.transmit f).schedule = s.schedule := rfl
@[simp] theorem State.transmit_turnsTaken (f : List Byte) (s : State) : (s.transmit f).turnsTaken = s.turnsTaken := rfl

/-! ### `State.applyReset` -/

@[simp] theorem State.applyReset_cmd (s : State) : s.applyReset.cmd = State.reset.cmd := rfl
@[simp] theorem State.applyReset_phase (s : State) : s.applyReset.phase = State.reset.phase := rfl
@[simp] theorem State.applyReset_result (s : State) : s.applyReset.result = State.reset.result := rfl
@[simp] theorem State.applyReset_detail (s : State) : s.applyReset.detail = State.reset.detail := rfl
@[simp] theorem State.applyReset_statusClass (s : State) : s.applyReset.statusClass = State.reset.statusClass := rfl
@[simp] theorem State.applyReset_statusRaw (s : State) : s.applyReset.statusRaw = State.reset.statusRaw := rfl
@[simp] theorem State.applyReset_csumOut (s : State) : s.applyReset.csumOut = State.reset.csumOut := rfl
@[simp] theorem State.applyReset_reqTarget (s : State) : s.applyReset.reqTarget = State.reset.reqTarget := rfl
@[simp] theorem State.applyReset_reqSource (s : State) : s.applyReset.reqSource = State.reset.reqSource := rfl
@[simp] theorem State.applyReset_reqLen (s : State) : s.applyReset.reqLen = State.reset.reqLen := rfl
@[simp] theorem State.applyReset_txLen (s : State) : s.applyReset.txLen = State.reset.txLen := rfl
@[simp] theorem State.applyReset_rxCount (s : State) : s.applyReset.rxCount = State.reset.rxCount := rfl
@[simp] theorem State.applyReset_echoCount (s : State) : s.applyReset.echoCount = State.reset.echoCount := rfl
@[simp] theorem State.applyReset_payOff (s : State) : s.applyReset.payOff = State.reset.payOff := rfl
@[simp] theorem State.applyReset_payLen (s : State) : s.applyReset.payLen = State.reset.payLen := rfl
@[simp] theorem State.applyReset_mem (s : State) : s.applyReset.mem = State.reset.mem := rfl
@[simp] theorem State.applyReset_decNeed (s : State) : s.applyReset.decNeed = State.reset.decNeed := rfl
@[simp] theorem State.applyReset_decAcc (s : State) : s.applyReset.decAcc = State.reset.decAcc := rfl
@[simp] theorem State.applyReset_written (s : State) : s.applyReset.written = State.reset.written := rfl
@[simp] theorem State.applyReset_faultMark (s : State) : s.applyReset.faultMark = s.faultMark := rfl
@[simp] theorem State.applyReset_txLog (s : State) : s.applyReset.txLog = s.txLog := rfl
@[simp] theorem State.applyReset_rx (s : State) : s.applyReset.rx = s.rx := rfl
@[simp] theorem State.applyReset_rxTaken (s : State) : s.applyReset.rxTaken = s.rxTaken := rfl
@[simp] theorem State.applyReset_program (s : State) : s.applyReset.program = s.program := rfl
@[simp] theorem State.applyReset_hostData (s : State) : s.applyReset.hostData = s.hostData := rfl
@[simp] theorem State.applyReset_schedule (s : State) : s.applyReset.schedule = s.schedule := rfl
@[simp] theorem State.applyReset_turnsTaken (s : State) : s.applyReset.turnsTaken = s.turnsTaken := rfl

end Sys2Proof.Machine
end

