-- ==== Sys2Proof/Laws/Memory.lean ====
section
/-! SUPPORT. The buffers: read after write, the frame of a write, the canonical form, and runs of bytes. -/

namespace Sys2Proof.Machine

namespace Memory

theorem wfAbove_weaken {lo lo' : Nat} (h : lo' ≤ lo) : ∀ {m : Memory}, wfAbove lo m = true → wfAbove lo' m = true
  | [], _ => rfl
  | (a, b) :: m, hm => by
    simp only [wfAbove, Bool.and_eq_true, decide_eq_true_eq] at hm ⊢
    exact ⟨⟨Nat.le_trans h hm.1.1, hm.1.2⟩, hm.2⟩

/-- Below its least address a canonical list reads as blank. -/
theorem read_below {lo x : Nat} (h : x < lo) : ∀ {m : Memory}, wfAbove lo m = true → m.read x = blank
  | [], _ => rfl
  | (a, b) :: m, hm => by
    simp only [wfAbove, Bool.and_eq_true, decide_eq_true_eq] at hm
    have : a ≠ x := by omega
    simp only [read, if_neg this]
    exact read_below (by omega : x < a + 1) hm.2

theorem wfAbove_write {lo x : Nat} (v : Byte) (h : lo ≤ x) :
    ∀ {m : Memory}, wfAbove lo m = true → wfAbove lo (m.write x v) = true
  | [], _ => by
    unfold write
    split
    · rfl
    · simp [wfAbove, *]
  | (a, b) :: m, hm => by
    have hm' := hm
    simp only [wfAbove, Bool.and_eq_true, decide_eq_true_eq] at hm'
    obtain ⟨⟨ha, hb⟩, hr⟩ := hm'
    unfold write
    split
    · rename_i hx
      split
      · exact hm
      · rename_i hv
        simp only [wfAbove, Bool.and_eq_true, decide_eq_true_eq]
        exact ⟨⟨h, by simpa using hv⟩, ⟨by omega, hb⟩, hr⟩
    · split
      · rename_i hx
        split
        · exact wfAbove_weaken (by omega) hr
        · rename_i hv
          simp only [wfAbove, Bool.and_eq_true, decide_eq_true_eq]
          subst hx
          exact ⟨⟨h, by simpa using hv⟩, hr⟩
      · simp only [wfAbove, Bool.and_eq_true, decide_eq_true_eq]
        exact ⟨⟨ha, hb⟩, wfAbove_write v (by omega) hr⟩

/-- A write keeps the canonical form. -/
theorem wf_write {m : Memory} (x : Nat) (v : Byte) (h : m.wf = true) : (m.write x v).wf = true :=
  wfAbove_write v (Nat.zero_le x) h

theorem read_write_above {lo : Nat} (x y : Nat) (v : Byte) :
    ∀ {m : Memory}, wfAbove lo m = true → (m.write x v).read y = if x = y then v else m.read y
  | [], _ => by
    unfold write
    split
    · rename_i hv
      simp [read, hv]
    · simp [read]
  | (a, b) :: m, hm => by
    simp only [wfAbove, Bool.and_eq_true, decide_eq_true_eq] at hm
    obtain ⟨⟨ha, hb⟩, hr⟩ := hm
    unfold write
    split
    · rename_i hx
      split
      · rename_i hv
        split
        · rename_i he
          subst he
          simp only [read, if_neg (by omega : a ≠ x)]
          rw [hv]
          exact read_below (by omega : x < a + 1) hr
        · rfl
      · rfl
    · split
      · rename_i hx
        subst hx
        split
        · rename_i hv
          split
          · rename_i he
            subst he
            rw [hv]
            exact read_below (Nat.lt_succ_self _) hr
          · rename_i he
            simp [read, he]
        · split
          · rename_i he
            simp [read, he]
          · rename_i he
            simp [read, he]
      · rename_i hx
        simp only [read]
        split
        · rename_i he
          rw [if_neg (by omega)]
        · exact read_write_above x y v hr

/-- Reading after a write: the byte written at its address, and every other byte as before. -/
theorem read_write {m : Memory} (h : m.wf = true) (x y : Nat) (v : Byte) :
    (m.write x v).read y = if x = y then v else m.read y :=
  read_write_above x y v h

/-- A write leaves every other address alone, in any list of cells. -/
theorem read_write_ne {x y : Nat} (v : Byte) (hxy : x ≠ y) : ∀ m : Memory, (m.write x v).read y = m.read y
  | [] => by
    unfold write
    split <;> simp [read, hxy]
  | (a, b) :: m => by
    have ih := read_write_ne v hxy m
    unfold write
    split
    · split <;> simp [read, hxy]
    · split
      · rename_i hxa
        subst hxa
        split <;> simp [read, hxy]
      · simp only [read, ih]

theorem wf_writeBytes : ∀ (bs : List Byte) {m : Memory} (base : Nat),
    m.wf = true → (m.writeBytes base bs).wf = true
  | [], _, _, h => h
  | _ :: bs, _, base, h => wf_writeBytes bs (base + 1) (wf_write base _ h)

/-- Reading after a run of bytes is written: the run's bytes inside it, and every other byte as before. -/
theorem read_writeBytes : ∀ (bs : List Byte) {m : Memory} (base y : Nat), m.wf = true →
    (m.writeBytes base bs).read y =
      if base ≤ y ∧ y < base + bs.length then bs.getD (y - base) 0 else m.read y
  | [], m, base, y, _ => by
    rw [if_neg (by simp)]
    rfl
  | b :: bs, m, base, y, h => by
    unfold writeBytes
    rw [read_writeBytes bs (base + 1) y (wf_write base b h), read_write h]
    by_cases hy : base = y
    · subst hy
      simp
    · by_cases hin : base + 1 ≤ y ∧ y < base + 1 + bs.length
      · have h2 : base ≤ y ∧ y < base + (b :: bs).length := by
          simp only [List.length_cons]; omega
        rw [if_pos hin, if_pos h2]
        obtain ⟨k, rfl⟩ : ∃ k, y = base + 1 + k := ⟨y - (base + 1), by omega⟩
        rw [show base + 1 + k - base = k + 1 by omega]
        simp
      · have h2 : ¬ (base ≤ y ∧ y < base + (b :: bs).length) := by
          simp only [List.length_cons]; omega
        rw [if_neg hin, if_neg h2, if_neg hy]

theorem read_writeBytes_outside {m : Memory} (h : m.wf = true) (bs : List Byte) (base y : Nat)
    (hy : y < base ∨ base + bs.length ≤ y) : (m.writeBytes base bs).read y = m.read y := by
  rw [read_writeBytes bs base y h, if_neg (by omega)]

theorem read_writeBytes_inside {m : Memory} (h : m.wf = true) (bs : List Byte) (base i : Nat)
    (hi : i < bs.length) : (m.writeBytes base bs).read (base + i) = bs[i] := by
  rw [read_writeBytes bs base (base + i) h, if_pos (by omega)]
  simp [hi]

@[simp] theorem length_readBytes (m : Memory) (base n : Nat) : (m.readBytes base n).length = n := by
  simp [readBytes]

@[simp] theorem getElem_readBytes (m : Memory) (base n i : Nat) (h : i < (m.readBytes base n).length) :
    (m.readBytes base n)[i] = m.read (base + i) := by
  simp [readBytes]

@[simp] theorem readBytes_zero (m : Memory) (base : Nat) : m.readBytes base 0 = [] := rfl

theorem readBytes_succ (m : Memory) (base n : Nat) :
    m.readBytes base (n + 1) = m.readBytes base n ++ [m.read (base + n)] := by
  simp [readBytes, List.range_succ]

/-- A run of bytes depends on its own bytes only. -/
theorem readBytes_congr {m m' : Memory} {base n : Nat}
    (h : ∀ i, i < n → m'.read (base + i) = m.read (base + i)) : m'.readBytes base n = m.readBytes base n := by
  apply List.ext_getElem (by simp)
  intro i h1 h2
  simpa using h i (by simpa using h2)

/-- A run read back is the run written. -/
theorem readBytes_writeBytes {m : Memory} (h : m.wf = true) (bs : List Byte) (base : Nat) :
    (m.writeBytes base bs).readBytes base bs.length = bs := by
  apply List.ext_getElem (by simp)
  intro i h1 h2
  simp [read_writeBytes_inside h bs base i h2]

/-- The addresses a write leaves listed are the old ones and its own. -/
theorem mem_write {x : Nat} {v : Byte} {c : Host.Cell} :
    ∀ {m : Memory}, c ∈ m.write x v → c.1 = x ∨ c ∈ m
  | [], h => by
    unfold write at h
    split at h <;> simp_all
  | (a, b) :: m, h => by
    unfold write at h
    split at h
    · split at h
      · exact .inr h
      · rcases List.mem_cons.1 h with rfl | h'
        · exact .inl rfl
        · exact .inr h'
    · split at h
      · split at h
        · exact .inr (List.mem_cons_of_mem _ h)
        · rcases List.mem_cons.1 h with rfl | h'
          · exact .inl rfl
          · exact .inr (List.mem_cons_of_mem _ h')
      · rcases List.mem_cons.1 h with rfl | h'
        · exact .inr (by simp)
        · exact (mem_write h').imp_right (List.mem_cons_of_mem _)

theorem mem_writeBytes {c : Host.Cell} : ∀ (bs : List Byte) {m : Memory} (base : Nat),
    c ∈ m.writeBytes base bs → (base ≤ c.1 ∧ c.1 < base + bs.length) ∨ c ∈ m
  | [], _, _, h => .inr h
  | b :: bs, m, base, h => by
    rcases mem_writeBytes bs (base + 1) h with h' | h'
    · left; simp only [List.length_cons]; omega
    · rcases mem_write h' with h'' | h''
      · left; simp only [List.length_cons]; omega
      · exact .inr h''

theorem read_of_above {lo x : Nat} {b : Byte} :
    ∀ {m : Memory}, wfAbove lo m = true → (x, b) ∈ m → m.read x = b ∧ b ≠ blank ∧ lo ≤ x
  | (a, c) :: m, hm, h => by
    simp only [wfAbove, Bool.and_eq_true, decide_eq_true_eq] at hm
    obtain ⟨⟨ha, hb⟩, hr⟩ := hm
    rcases List.mem_cons.1 h with heq | h'
    · obtain ⟨rfl, rfl⟩ := Prod.mk.injEq _ _ _ _ ▸ heq
      exact ⟨by simp [read], by simpa using hb, ha⟩
    · obtain ⟨h1, h2, h3⟩ := read_of_above hr h'
      exact ⟨by rw [read, if_neg (by omega), h1], h2, by omega⟩

theorem ext_above {lo : Nat} : ∀ {m m' : Memory}, wfAbove lo m = true → wfAbove lo m' = true →
    (∀ x, m.read x = m'.read x) → m = m'
  | [], [], _, _, _ => rfl
  | [], (a, b) :: m', _, h', he => by
    obtain ⟨h1, h2, _⟩ := read_of_above (x := a) (b := b) h' (by simp)
    exact absurd ((h1.symm.trans (he a).symm)) h2
  | (a, b) :: m, [], h, _, he => by
    obtain ⟨h1, h2, _⟩ := read_of_above (x := a) (b := b) h (by simp)
    exact absurd (h1.symm.trans (he a)) h2
  | (a, b) :: m, (a', b') :: m', h, h', he => by
    have hc := h
    have hc' := h'
    simp only [wfAbove, Bool.and_eq_true, decide_eq_true_eq] at h h'
    obtain ⟨h1, h2, _⟩ := read_of_above (x := a) (b := b) hc (by simp)
    obtain ⟨h1', h2', _⟩ := read_of_above (x := a') (b := b') hc' (by simp)
    have haa : a = a' := by
      rcases Nat.lt_trichotomy a a' with hlt | heq | hgt
      · have : read ((a', b') :: m') a = blank := by
          rw [read, if_neg (by omega)]
          exact read_below (by omega : a < a' + 1) h'.2
        exact absurd (h1.symm.trans ((he a).trans this)) h2
      · exact heq
      · have : read ((a, b) :: m) a' = blank := by
          rw [read, if_neg (by omega)]
          exact read_below (by omega : a' < a + 1) h.2
        exact absurd (h1'.symm.trans ((he a').symm.trans this)) h2'
    subst haa
    have hbb : b = b' := by rw [← h1, ← h1', he a]
    subst hbb
    congr 1
    refine ext_above h.2 h'.2 fun x => ?_
    by_cases hx : a = x
    · subst hx
      rw [read_below (Nat.lt_succ_self _) h.2, read_below (Nat.lt_succ_self _) h'.2]
    · have := he x
      simpa [read, hx] using this

/-- Canonical buffers that read alike are equal. -/
theorem ext {m m' : Memory} (h : m.wf = true) (h' : m'.wf = true) (he : ∀ x, m.read x = m'.read x) : m = m' :=
  ext_above h h' he

end Memory

namespace WrittenSet

theorem has_iff {w : WrittenSet} {x : Nat} : w.has x = true ↔ x ∈ w := by simp [has]

theorem mem_insert {x y : Nat} : ∀ {w : WrittenSet}, y ∈ w.insert x ↔ y = x ∨ y ∈ w
  | [] => by simp [insert]
  | a :: w => by
    unfold insert
    split
    · simp
    · split
      · rename_i h; subst h; simp
      · simp only [List.mem_cons, mem_insert (w := w)]
        exact or_left_comm

/-- What is in W after an element joins it. -/
theorem has_insert (w : WrittenSet) (x y : Nat) : (w.insert x).has y = (decide (y = x) || w.has y) := by
  rw [Bool.eq_iff_iff, has_iff, mem_insert]
  simp [has_iff]

theorem wfAbove_weaken {lo lo' : Nat} (h : lo' ≤ lo) :
    ∀ {w : WrittenSet}, wfAbove lo w = true → wfAbove lo' w = true
  | [], _ => rfl
  | a :: w, hw => by
    simp only [wfAbove, Bool.and_eq_true, decide_eq_true_eq] at hw ⊢
    exact ⟨Nat.le_trans h hw.1, hw.2⟩

theorem wfAbove_insert {lo x : Nat} (h : lo ≤ x) :
    ∀ {w : WrittenSet}, wfAbove lo w = true → wfAbove lo (w.insert x) = true
  | [], _ => by simp [insert, wfAbove, h]
  | a :: w, hw => by
    have hw' := hw
    simp only [wfAbove, Bool.and_eq_true, decide_eq_true_eq] at hw'
    unfold insert
    split
    · rename_i hx
      simp only [wfAbove, Bool.and_eq_true, decide_eq_true_eq]
      exact ⟨h, by omega, hw'.2⟩
    · split
      · exact hw
      · simp only [wfAbove, Bool.and_eq_true, decide_eq_true_eq]
        exact ⟨hw'.1, wfAbove_insert (by omega) hw'.2⟩

/-- Joining keeps the canonical form of W. -/
theorem wf_insert {w : WrittenSet} (x : Nat) (h : w.wf = true) : (w.insert x).wf = true :=
  wfAbove_insert (Nat.zero_le x) h

theorem insert_above {lo : Nat} (x : Nat) :
    ∀ {w : WrittenSet}, wfAbove lo w = true → x ∈ w → w.insert x = w
  | a :: w, hw, hx => by
    simp only [wfAbove, Bool.and_eq_true, decide_eq_true_eq] at hw
    have key : ∀ {lo : Nat} {w : WrittenSet}, wfAbove lo w = true → ∀ y ∈ w, lo ≤ y := by
      intro lo w
      induction w generalizing lo with
      | nil => intro _ y hy; cases hy
      | cons b w ih =>
        intro hb y hy
        simp only [wfAbove, Bool.and_eq_true, decide_eq_true_eq] at hb
        rcases List.mem_cons.1 hy with rfl | hy
        · exact hb.1
        · have := ih hb.2 y hy; omega
    unfold insert
    rcases List.mem_cons.1 hx with rfl | hx'
    · simp
    · have := key hw.2 x hx'
      rw [if_neg (by omega), if_neg (by omega), insert_above x hw.2 hx']

/-- An element joins W once. -/
theorem insert_of_mem {w : WrittenSet} {x : Nat} (h : w.wf = true) (hx : w.has x = true) : w.insert x = w :=
  insert_above x h (has_iff.1 hx)

end WrittenSet
end Sys2Proof.Machine
end

