-- ==== Sys2Proof/Laws/Checksum.lean ====
section
/-! SUPPORT. The checksum (R11, R90): its small lemmas, and the lengths of the frames. -/

namespace Sys2Proof.Machine

@[simp] theorem xorFold_nil : xorFold [] = 0x00 := rfl

/-- R11: one byte more is one exclusive-or more. -/
theorem xorFold_concat (s : List Byte) (b : Byte) : xorFold (s ++ [b]) = xorFold s ^^^ b := by
  simp [xorFold]

theorem foldl_xor (c : Byte) : ∀ s : List Byte, s.foldl (· ^^^ ·) c = c ^^^ xorFold s
  | [] => by simp
  | b :: s => by
    simp only [xorFold, List.foldl_cons]
    rw [foldl_xor (c ^^^ b) s, foldl_xor (0x00 ^^^ b) s]
    simp [BitVec.xor_assoc]

theorem xorFold_cons (b : Byte) (s : List Byte) : xorFold (b :: s) = b ^^^ xorFold s := by
  show s.foldl (· ^^^ ·) (0x00 ^^^ b) = _
  rw [foldl_xor]
  simp

theorem xor_eq_zero (a b : Byte) : a ^^^ b = 0x00 ↔ a = b := by
  constructor
  · intro h
    have : a ^^^ b ^^^ b = 0x00 ^^^ b := by rw [h]
    simpa [BitVec.xor_assoc] using this
  · rintro rfl
    simp

/-- A frame's checksum is right exactly when all its bytes fold to zero. -/
theorem xorFold_dropLast {f : List Byte} (h : f ≠ []) : xorFold f = 0x00 ↔ xorFold f.dropLast = f.getLastD 0 := by
  rcases List.eq_nil_or_concat f with rfl | ⟨g, b, rfl⟩
  · exact absurd rfl h
  · simp [xorFold_concat]

@[simp] theorem length_encodeDs2 (a : Byte) (p : List Byte) : (encodeDs2 a p).length = p.length + 3 := by
  simp [encodeDs2]

@[simp] theorem length_encodeKwp (t src : Byte) (p : List Byte) : (encodeKwp t src p).length = p.length + 5 := by
  simp [encodeKwp]

@[simp] theorem length_payload (s : State) : s.payload.length = s.reqLen.toNat := by simp [State.payload]

@[simp] theorem length_ds2Request (s : State) : s.ds2Request.length = s.reqLen.toNat + 3 := by
  simp [State.ds2Request]

@[simp] theorem length_kwpRequest (s : State) : s.kwpRequest.length = s.reqLen.toNat + 5 := by
  simp [State.kwpRequest]

/-- An encoded DS2 frame folds to zero. -/
@[simp] theorem xorFold_encodeDs2 (a : Byte) (p : List Byte) : xorFold (encodeDs2 a p) = 0x00 := by
  rw [encodeDs2, xorFold_concat, BitVec.xor_self]; rfl

/-- An encoded KWP2000 frame folds to zero. -/
@[simp] theorem xorFold_encodeKwp (t src : Byte) (p : List Byte) : xorFold (encodeKwp t src p) = 0x00 := by
  rw [encodeKwp, xorFold_concat, BitVec.xor_self]; rfl

end Sys2Proof.Machine
end

