-- ==== Sys2Proof/Laws/Engine.lean ====
section
/-! SUPPORT. The Engine: which decoder and which ending run in a phase, what one decoder step does, and what a run
of bytes leaves. -/

namespace Sys2Proof.Machine

/-- The Engine runs the decoder step `dec` and the phase's ending `fin` in the phase and with the command of `s`. -/
def State.Runs (s : State) (dec : State → Option Verdict × State) (fin : Verdict → State → State) : Prop :=
  s.busy = true ∧ ∀ u : State, u.phase = s.phase → u.cmd = s.cmd → u.rxCount.toNat < 260 →
    engineStep u = .next (phaseStep (dec u) fin)

theorem engineStep_of_room {u : State} (h : u.rxCount.toNat < 260) :
    ¬ Config.frameBufSize ≤ u.rxCount.toNat := by
  simp only [Config.frameBufSize]; omega

theorem runs_decDs2 {s : State} (hp : s.phase = .decoding) (hc : s.cmd = 0x04) :
    s.Runs State.decStepDs2 State.decDs2Finish := by
  refine ⟨by simp [State.busy, hp, Phase.busy], fun u h1 h2 h3 => ?_⟩
  rw [engineStep, if_neg (engineStep_of_room h3), h1, hp, h2, hc]
  rfl

theorem runs_decKwp {s : State} (hp : s.phase = .decoding) (hc : s.cmd = 0x05) :
    s.Runs State.decStepKwp State.decKwpFinish := by
  refine ⟨by simp [State.busy, hp, Phase.busy], fun u h1 h2 h3 => ?_⟩
  rw [engineStep, if_neg (engineStep_of_room h3), h1, hp, h2, hc]
  rfl

theorem runs_echoDs2 {s : State} (hp : s.phase = .awaitingEcho) (hc : s.cmd = 0x06) :
    s.Runs State.decStepDs2 State.echoFinish := by
  refine ⟨by simp [State.busy, hp, Phase.busy], fun u h1 h2 h3 => ?_⟩
  rw [engineStep, if_neg (engineStep_of_room h3), h1, hp, h2, hc]
  rfl

theorem runs_echoKwp {s : State} (hp : s.phase = .awaitingEcho) (hc : s.cmd = 0x07) :
    s.Runs State.decStepKwp State.echoFinish := by
  refine ⟨by simp [State.busy, hp, Phase.busy], fun u h1 h2 h3 => ?_⟩
  rw [engineStep, if_neg (engineStep_of_room h3), h1, hp, h2, hc]
  rfl

theorem runs_replyDs2 {s : State} (hp : s.phase = .awaitingReply) (hc : s.cmd = 0x06) :
    s.Runs State.decStepDs2 State.replyDs2Finish := by
  refine ⟨by simp [State.busy, hp, Phase.busy], fun u h1 h2 h3 => ?_⟩
  rw [engineStep, if_neg (engineStep_of_room h3), h1, hp, h2, hc]
  rfl

theorem runs_replyKwp {s : State} (hp : s.phase = .awaitingReply) (hc : s.cmd = 0x07) :
    s.Runs State.decStepKwp State.replyKwpFinish := by
  refine ⟨by simp [State.busy, hp, Phase.busy], fun u h1 h2 h3 => ?_⟩
  rw [engineStep, if_neg (engineStep_of_room h3), h1, hp, h2, hc]
  rfl

/-- An Engine turn of the machine while the decoder runs. -/
theorem step_engine {s u : State} {dec : State → Option Verdict × State} {fin : Verdict → State → State}
    (hr : s.Runs dec fin) (hp : u.phase = s.phase) (hc : u.cmd = s.cmd) (hn : u.rxCount.toNat < 260)
    (ht : u.nextTurn = .engine) : step u = .next (phaseStep (dec u.takeTurn) fin) := by
  rw [step, ht]
  show engineTurn u.takeTurn = _
  have hb : u.takeTurn.busy = true := by
    have := hr.1
    simp only [State.busy, State.takeTurn_phase] at this ⊢
    rw [hp]; exact this
  rw [engineTurn, if_pos hb]
  exact hr.2 _ hp hc hn

/-! ## What one decoder step does -/

/-- R103: the cases of DecStepDS2. -/
theorem decStepDs2_timeout {s : State} (h : s.rxAnswer = .timeout) :
    s.decStepDs2 = (some s.timeoutVerdict, s.rxConsume) := by
  rw [State.decStepDs2, h]

theorem decStepDs2_byte {s : State} {r : Byte} (h : s.rxAnswer = .byte r) :
    s.decStepDs2 = s.rxConsume.ds2Byte r := by
  rw [State.decStepDs2, h]

theorem decStepKwp_timeout {s : State} (h : s.rxAnswer = .timeout) :
    s.decStepKwp = (some s.timeoutVerdict, s.rxConsume) := by
  rw [State.decStepKwp, h]

theorem decStepKwp_byte {s : State} {r : Byte} (h : s.rxAnswer = .byte r) :
    s.decStepKwp = s.rxConsume.kwpByte r := by
  rw [State.decStepKwp, h]

/-! ## A run of bytes -/

/-- `s`, at the start of a frame, after the Engine has taken the bytes `p` and no verdict was given: DEC_NEED is
`need`. -/
def State.fed (s : State) (need : Half) (p : List Byte) : State :=
  { s with
    mem := s.mem.writeBytes rxBase p
    rxCount := BitVec.ofNat 16 p.length
    decAcc := xorFold p
    decNeed := need
    rx := s.rx.drop p.length
    rxTaken := s.rxTaken + p.length
    schedule := s.schedule.drop p.length
    turnsTaken := s.turnsTaken + p.length }

/-- DEC_NEED once the bytes `p` of a DS2 frame have arrived (R38). -/
def ds2Need (p : List Byte) : Half := if p.length < 2 then 0 else zext16 (p.getD 1 0)

/-- DEC_NEED once the bytes `p` of a KWP2000 frame have arrived (R38). -/
def kwpNeed (p : List Byte) : Half := if p.length < 4 then 0 else zext16 (p.getD 3 0) + 5

theorem Memory.writeBytes_concat (b : Byte) : ∀ (p : List Byte) (m : Memory) (base : Nat),
    m.writeBytes base (p ++ [b]) = (m.writeBytes base p).write (base + p.length) b
  | [], m, base => by simp [Memory.writeBytes]
  | c :: p, m, base => by
    simp only [List.cons_append, Memory.writeBytes, List.length_cons]
    rw [Memory.writeBytes_concat b p]
    congr 1
    omega

theorem toNat_ofNat_count {n : Nat} (h : n ≤ 260) : (BitVec.ofNat 16 n).toNat = n := by
  rw [BitVec.toNat_ofNat, Nat.mod_eq_of_lt (by omega)]

theorem ofNat_count_inj {n m : Nat} (hn : n ≤ 260) (hm : m ≤ 260) :
    BitVec.ofNat 16 n = BitVec.ofNat 16 m ↔ n = m := by
  rw [← BitVec.toNat_inj, toNat_ofNat_count hn, toNat_ofNat_count hm]

/-- The next byte stored after a run of bytes. -/
theorem fed_storeRx {s : State} {need : Half} {p : List Byte} (b : Byte) (hp : p.length < 260) :
    ((s.fed need p).takeTurn.rxConsume.storeRx b).setNeed need = s.fed need (p ++ [b]) := by
  simp only [State.fed, State.takeTurn, State.rxConsume, State.storeRx, State.setNeed, State.mk.injEq,
    List.length_append, List.length_cons, List.length_nil, Memory.writeBytes_concat, xorFold_concat, and_true, true_and,
    toNat_ofNat_count (Nat.le_of_lt hp), List.tail_drop, ← Nat.add_assoc]
  simp [BitVec.ofNat_add]

theorem fed_setNeed (s : State) (n m : Half) (p : List Byte) : (s.fed n p).setNeed m = s.fed m p := rfl

theorem setNeed_fed_storeRx {s : State} {n m : Half} {p : List Byte} (b : Byte) (hp : p.length < 260) :
    ((s.fed n p).takeTurn.rxConsume.storeRx b).setNeed m = s.fed m (p ++ [b]) := by
  have h := congrArg (fun t => State.setNeed m t) (fed_storeRx (s := s) (need := n) b hp)
  exact h

theorem storeRx_fed {s : State} {n : Half} {p : List Byte} (b : Byte) (hp : p.length < 260) :
    (s.fed n p).takeTurn.rxConsume.storeRx b = s.fed n (p ++ [b]) :=
  fed_storeRx (s := s) (need := n) b hp

theorem rxAnswer_fed {s : State} {need : Half} {p : List Byte} {a : RxAnswer} {rest : List RxAnswer}
    (h : s.rx = p.map RxAnswer.byte ++ a :: rest) : (s.fed need p).takeTurn.rxAnswer = a := by
  simp [State.rxAnswer, State.fed, State.takeTurn, h]

theorem nextTurn_fed {s : State} {need : Half} {p : List Byte} {n : Nat} {sched : List Turn}
    (h : s.schedule = List.replicate n .engine ++ sched) (hn : p.length < n) :
    (s.fed need p).nextTurn = .engine := by
  obtain ⟨k, rfl⟩ : ∃ k, n = p.length + (k + 1) := ⟨n - p.length - 1, by omega⟩
  simp [State.nextTurn, State.fed, h, List.drop_append, List.replicate_succ]

/-- One step of the machine on the next byte of a DS2 frame. -/
theorem step_fed_ds2 {s : State} {fin : Verdict → State → State} (hr : s.Runs State.decStepDs2 fin)
    {p : List Byte} {b : Byte} {n : Nat} {rest : List RxAnswer} {sched : List Turn}
    (hrx : s.rx = (p ++ [b]).map RxAnswer.byte ++ rest) (hs : s.schedule = List.replicate n .engine ++ sched)
    (hn : p.length < n) (hp : p.length < 260) :
    step (s.fed (ds2Need p) p) = .next (phaseStep
      (if p.length = 1 ∧ b.toNat < 3 then (some .badLength, s.fed 0 (p ++ [b]))
       else ((s.fed (ds2Need (p ++ [b])) (p ++ [b])).frameEnd, s.fed (ds2Need (p ++ [b])) (p ++ [b]))) fin) := by
  have hc : (s.fed (ds2Need p) p).rxCount.toNat < 260 := by
    simp [State.fed, toNat_ofNat_count (Nat.le_of_lt hp), hp]
  rw [step_engine (s := s) (u := s.fed (ds2Need p) p) hr rfl rfl hc (nextTurn_fed hs hn),
    decStepDs2_byte (rxAnswer_fed (a := .byte b) (rest := rest) (by simpa using hrx))]
  congr 2
  have h1 : (s.fed (ds2Need p) p).takeTurn.rxConsume.rxCount = 1 ↔ p.length = 1 := by
    exact ofNat_count_inj (m := 1) (Nat.le_of_lt hp) (by omega)
  simp only [State.ds2Byte, h1]
  by_cases hl : p.length = 1
  · obtain ⟨a, rfl⟩ := List.length_eq_one_iff.1 hl
    simp only [List.length_cons, List.length_nil, true_and, if_true]
    split
    · rw [storeRx_fed b hp]; rfl
    · rw [setNeed_fed_storeRx b hp]; rfl
  · simp only [hl, false_and, if_false]
    have : ds2Need (p ++ [b]) = ds2Need p := by
      unfold ds2Need
      rcases Nat.lt_or_ge p.length 2 with h2 | h2
      · have : p.length = 0 := by omega
        simp [this]
      · rw [if_neg (by rw [List.length_append]; omega), if_neg (by omega)]
        congr 1
        simp [List.getElem?_append_left (show 1 < p.length by omega)]
    rw [storeRx_fed b hp, this]

/-- One step of the machine on the next byte of a KWP2000 frame. -/
theorem step_fed_kwp {s : State} {fin : Verdict → State → State} (hr : s.Runs State.decStepKwp fin)
    {p : List Byte} {b : Byte} {n : Nat} {rest : List RxAnswer} {sched : List Turn}
    (hrx : s.rx = (p ++ [b]).map RxAnswer.byte ++ rest) (hs : s.schedule = List.replicate n .engine ++ sched)
    (hn : p.length < n) (hp : p.length < 260) :
    step (s.fed (kwpNeed p) p) = .next (phaseStep
      (if p.length = 0 ∧ b ≠ Config.kwpHeader then (some .unexpectedHeader, s.fed 0 (p ++ [b]))
       else ((s.fed (kwpNeed (p ++ [b])) (p ++ [b])).frameEnd, s.fed (kwpNeed (p ++ [b])) (p ++ [b]))) fin) := by
  have hc : (s.fed (kwpNeed p) p).rxCount.toNat < 260 := by
    simp [State.fed, toNat_ofNat_count (Nat.le_of_lt hp), hp]
  rw [step_engine (s := s) (u := s.fed (kwpNeed p) p) hr rfl rfl hc (nextTurn_fed hs hn),
    decStepKwp_byte (rxAnswer_fed (a := .byte b) (rest := rest) (by simpa using hrx))]
  congr 2
  have h0 : (s.fed (kwpNeed p) p).takeTurn.rxConsume.rxCount = 0 ↔ p.length = 0 := by
    exact ofNat_count_inj (m := 0) (Nat.le_of_lt hp) (by omega)
  have h3 : (s.fed (kwpNeed p) p).takeTurn.rxConsume.rxCount = 3 ↔ p.length = 3 := by
    exact ofNat_count_inj (m := 3) (Nat.le_of_lt hp) (by omega)
  simp only [State.kwpByte, h0, h3]
  by_cases hh : p.length = 0 ∧ b ≠ Config.kwpHeader
  · have hnil : p = [] := List.length_eq_zero_iff.1 hh.1
    subst hnil
    rw [if_pos hh, if_pos hh, storeRx_fed b hp]
    rfl
  · rw [if_neg hh, if_neg hh]
    by_cases hl : p.length = 3
    · have : kwpNeed (p ++ [b]) = zext16 b + 5 := by
        unfold kwpNeed
        rw [if_neg (by simp [hl])]
        simp [hl]
      rw [if_pos hl, setNeed_fed_storeRx b hp, this]
    · have : kwpNeed (p ++ [b]) = kwpNeed p := by
        unfold kwpNeed
        rcases Nat.lt_or_ge p.length 4 with h2 | h2
        · rw [if_pos (by simp; omega), if_pos h2]
        · rw [if_neg (by simp; omega), if_neg (by omega)]
          congr 2
          simp [List.getElem?_append_left (show 3 < p.length by omega)]
      rw [if_neg hl, storeRx_fed b hp, this]

end Sys2Proof.Machine
end

