-- ==== Sys2Proof/Laws/Accept.lean ====
section
/-! SUPPORT. The shared accept of a command, and what every instruction and every Host's turn leaves alone. -/

namespace Sys2Proof.Machine

/-! ## The accept (R140), once -/

theorem accept_busy {s : State} (c : Byte) (p : State → Bool) (b : State → State) (h : s.busy = true) :
    s.accept c p b = s.markFault .hostBusy := by
  rw [State.accept, if_pos h]

theorem accept_missing {s : State} (c : Byte) {p : State → Bool} (b : State → State) (h : s.busy = false)
    (hp : p s = false) : s.accept c p b = ({ s with cmd := c } : State).markFault .uninit := by
  rw [State.accept, h, hp]
  rfl

theorem accept_run {s : State} (c : Byte) {p : State → Bool} (b : State → State) (h : s.busy = false)
    (hp : p s = true) : s.accept c p b = b ({ s with cmd := c } : State).clearOutcome := by
  rw [State.accept, h, hp]
  rfl

/-- A command word runs what an accepted write of CMD runs. -/
theorem exec_decodeCmd8 (c : Byte) (s : State) : exec (decodeCmd8 c) s = execCommandCode c s := by
  rw [decodeCmd8, execCommandCode]
  cases commandOf c with
  | none => rfl
  | some k => cases k <;> rfl

/-! ## What no instruction touches: the Line's answers, the Host's program and the order -/

/-- `t` has the Line's answers, the program and the order of `s`, and a fault mark of `s` is still there. -/
structure Keeps (s t : State) : Prop where
  rx : t.rx = s.rx
  taken : t.rxTaken = s.rxTaken
  program : t.program = s.program
  schedule : t.schedule = s.schedule
  turns : t.turnsTaken = s.turnsTaken
  fault : ∀ f, s.faultMark = some f → t.faultMark = some f

theorem keeps_markFault (s : State) (f) : Keeps s (s.markFault f) := ⟨rfl, rfl, rfl, rfl, rfl, fun g h => by simp [h]⟩

theorem keeps_accept {s : State} (c p b) (h : ∀ u : State, Keeps u (b u)) : Keeps s (s.accept c p b) := by
  rw [State.accept]
  split
  · exact keeps_markFault _ _
  · split
    · have := h ({ s with cmd := c } : State).clearOutcome
      exact ⟨this.1, this.2, this.3, this.4, this.5, this.6⟩
    · have := keeps_markFault ({ s with cmd := c } : State) .uninit
      exact ⟨this.1, this.2, this.3, this.4, this.5, this.6⟩

theorem keeps_commandCode {s t : State} {c} (h : execCommandCode c s = .next t) : Keeps s t := by
  rw [execCommandCode] at h
  split at h <;> cases h <;> refine keeps_accept _ _ _ fun u => ?_
  all_goals first
    | exact ⟨rfl, rfl, rfl, rfl, rfl, fun _ h => h⟩
    | (simp only [State.encDs2Body, State.xactDs2Body]; split <;> exact ⟨rfl, rfl, rfl, rfl, rfl, fun _ h => h⟩)

theorem keeps_hwr {s t : State} {a d} (h : execHwr a d s = .next t) : Keeps s t := by
  rw [execHwr] at h
  split at h
  · cases h; exact keeps_markFault _ _
  · repeat' split at h
    · cases h; exact keeps_markFault _ _
    · cases h; exact keeps_markFault _ _
    · cases h; exact keeps_markFault _ _
    · rename_i l _ _ _ _
      rcases l with r | i | i | i
      · cases r <;> first | exact keeps_commandCode h | (cases h; exact ⟨rfl, rfl, rfl, rfl, rfl, fun _ h => h⟩)
      all_goals (cases h; exact ⟨rfl, rfl, rfl, rfl, rfl, fun _ h => h⟩)

theorem keeps_hrd {s t : State} {a} (h : execHrd a s = .next t) : Keeps s t := by
  rw [execHrd] at h
  split at h <;> cases h
  · exact ⟨rfl, rfl, rfl, rfl, rfl, fun _ h => h⟩
  · exact ⟨rfl, rfl, rfl, rfl, rfl, fun g h => by simp [h]⟩

/-- Every instruction keeps them. -/
theorem keeps_exec {s t : State} {i} (h : exec i s = .next t) : Keeps s t := by
  have hc : ∀ c, exec (decodeCmd8 c) s = .next t → Keeps s t := fun c h' => keeps_commandCode (exec_decodeCmd8 c s ▸ h')
  cases i with
  | csum => exact hc 1 h
  | encDs2 => exact hc 2 h
  | encKwp => exact hc 3 h
  | decDs2 => exact hc 4 h
  | decKwp => exact hc 5 h
  | xactDs2 => exact hc 6 h
  | xactKwp => exact hc 7 h
  | illegal c => cases h; exact keeps_accept _ _ _ fun u => ⟨rfl, rfl, rfl, rfl, rfl, fun _ h => h⟩
  | hwr a d => exact keeps_hwr h
  | hrd a => exact keeps_hrd h

/-- Everything the Host can do at its place when it is not refused: nothing, one instruction, a round of `poll` that
reads a STATE other than COMPLETE and FAILED, or the round that reads one of these and leaves the loop. -/
theorem hostTurn_cases {s t : State} (h : hostTurn s = .next t) :
    (s.program = [] ∧ t = s) ∨
    (∃ w rest i, s.program = .word w :: rest ∧ decode w = .ok i ∧ exec i { s with program := rest } = .next t) ∨
    (∃ rest, s.program = .poll :: rest ∧ s.done = false ∧ t = { s with hostData := some (zext16 s.phase.code) }) ∨
    (∃ rest, s.program = .poll :: rest ∧ s.done = true ∧
      t = { s with hostData := some (zext16 s.phase.code), program := rest }) := by
  rw [hostTurn, State.hostAction] at h
  by_cases hok : programOk s.program = true
  · rw [if_pos hok] at h
    cases hp : s.program with
    | nil => rw [hp] at h; cases h; exact .inl ⟨rfl, rfl⟩
    | cons x rest =>
      rw [hp] at h
      cases x with
      | word w =>
        simp only at h
        cases hd : decode w with
        | error e => rw [hd] at h; cases h
        | ok i =>
          rw [hd] at h
          refine .inr (.inl ⟨w, rest, i, rfl, hd, ?_⟩)
          simpa only [State.popProgram, hp, List.tail_cons] using h
      | poll =>
        have h' : Host.Outcome.next (State.afterPoll { s with hostData := some (zext16 s.phase.code) }) =
          Host.Outcome.next (φ := Fault) (ρ := Refusal) t := h
        injection h' with h'
        rw [State.afterPoll] at h'
        right; right
        cases hph : s.phase <;> simp only [hph] at h' <;>
          simp only [State.done, hph, ← h', State.popProgram, hp, List.tail_cons]
        case complete | failed => exact .inr ⟨rest, rfl, rfl, by rw [if_pos (by decide)]⟩
        all_goals exact .inl ⟨rest, rfl, rfl, by rw [if_neg (by decide)]⟩
  · rw [if_neg hok] at h; cases h

/-- A Host's turn takes no answer from the Line and clears no fault mark. -/
theorem keeps_hostTurn {s t : State} (h : hostTurn s = .next t) :
    t.rx = s.rx ∧ t.rxTaken = s.rxTaken ∧ t.schedule = s.schedule ∧ t.turnsTaken = s.turnsTaken ∧
      ∀ f, s.faultMark = some f → t.faultMark = some f := by
  rcases hostTurn_cases h with ⟨_, rfl⟩ | ⟨w, rest, i, _, _, h⟩ | ⟨_, _, _, rfl⟩ | ⟨_, _, _, rfl⟩
  · exact ⟨rfl, rfl, rfl, rfl, fun _ h => h⟩
  · have := keeps_exec h; exact ⟨this.1, this.2, this.4, this.5, this.6⟩
  all_goals exact ⟨rfl, rfl, rfl, rfl, fun _ h => h⟩

/-! ## While BUSY the Host changes nothing of the running command (R56, R57) -/

/-- `t` is `s` but for what the Host got, the fault mark and the program. -/
def State.HostOnly (s t : State) : Prop :=
  t = { s with hostData := t.hostData, faultMark := t.faultMark, program := t.program }

theorem exec_busy {s t : State} {i : Instr} (hb : s.busy = true) (h : exec i s = .next t) : s.HostOnly t := by
  have hc : ∀ c, exec (decodeCmd8 c) s = .next t → s.HostOnly t := fun c h' => by
    rw [exec_decodeCmd8, execCommandCode] at h'
    split at h' <;> cases h' <;> rw [accept_busy _ _ _ hb] <;> rfl
  cases i with
  | csum => exact hc 1 h
  | encDs2 => exact hc 2 h
  | encKwp => exact hc 3 h
  | decDs2 => exact hc 4 h
  | decKwp => exact hc 5 h
  | xactDs2 => exact hc 6 h
  | xactKwp => exact hc 7 h
  | illegal c => cases h; rw [accept_busy _ _ _ hb]; rfl
  | hwr a d =>
    have h' : execHwr a d s = .next t := h
    rw [execHwr, hb] at h'
    repeat' split at h'
    all_goals first
      | (cases h'; rfl)
      | (rename_i hf; exact absurd rfl hf)
  | hrd a =>
    have h' : execHrd a s = .next t := h
    rw [execHrd] at h'
    split at h' <;> cases h' <;> rfl

/-- R56, R57: the Host's place while BUSY, whatever its program. -/
theorem hostTurn_busy {s t : State} (hb : s.busy = true) (h : hostTurn s = .next t) : s.HostOnly t := by
  rcases hostTurn_cases h with ⟨_, rfl⟩ | ⟨w, rest, i, _, _, h⟩ | ⟨_, _, _, rfl⟩ | ⟨_, _, _, rfl⟩
  · rfl
  · exact exec_busy (s := { s with program := rest }) hb h
  · rfl
  · rfl

end Sys2Proof.Machine
end

