-- ==== Sys2Proof/Laws/Decoder.lean ====
section
/-! SUPPORT. One decoder step, once and for all: what it answers and what state it leaves, from a state that the
invariant describes. -/

namespace Sys2Proof.Machine

theorem toNat_zext16 (b : Byte) : (zext16 b).toNat = b.toNat := by
  rw [zext16, BitVec.toNat_setWidth, Nat.mod_eq_of_lt (by have := b.isLt; omega)]

theorem toNat_zext16_add (b : Byte) : (zext16 b + 5).toNat = b.toNat + 5 := by
  rw [BitVec.toNat_add, toNat_zext16, show (5 : Half).toNat = 5 from rfl]
  have := b.isLt
  omega

theorem toNat_count_succ {c : Half} (h : c.toNat < 260) : (c + 1).toNat = c.toNat + 1 := by
  rw [BitVec.toNat_add, show (1 : Half).toNat = 1 from rfl, Nat.mod_eq_of_lt (by omega)]

/-- RX_FRAME[0 : RX_COUNT] depends on RX_COUNT and those bytes only. -/
theorem rxFrame_congr {s t : State} (hc : t.rxCount = s.rxCount)
    (h : ∀ i, i < s.rxCount.toNat → t.rxByte i = s.rxByte i) : t.rxFrame = s.rxFrame := by
  rw [State.rxFrame, State.rxFrame, hc]
  exact Memory.readBytes_congr h

/-- The invariant does not speak of the fault mark, the Line's answers, the Host's program or the order. -/
theorem State.Inv.env {s : State} (h : s.Inv) (a b c d e f g) :
    State.Inv { s with
      faultMark := a, rx := b, rxTaken := c, program := d, hostData := e, schedule := f, turnsTaken := g } :=
  ⟨h.1, h.2, h.3, h.4, h.5, h.6, h.7, h.8, h.9, h.10, h.11, h.12, h.13, h.14, h.15, h.16⟩

/-- The part of the invariant that speaks of the buffers and the counts alone. -/
structure State.Buffers (s : State) : Prop where
  memWf : s.mem.wf = true
  memInBuffer : ∀ c ∈ s.mem, inBuffer c.1 = true
  writtenWf : s.written.wf = true
  writtenRequest : ∀ a ∈ s.written, requestAddr a = true
  txLenLe : s.txLen.toNat ≤ 260
  rxCountLe : s.rxCount.toNat ≤ 260
  echoCountLe : s.echoCount.toNat ≤ 260
  accFold : s.decAcc = xorFold s.rxFrame

theorem State.Inv.buffers {s : State} (h : s.Inv) : s.Buffers :=
  ⟨h.memWf, h.memInBuffer, h.writtenWf, h.writtenRequest, h.txLenLe, h.rxCountLe, h.echoCountLe, h.accFold⟩

theorem buffers_storeTx {s : State} (h : State.Buffers s) {f : List Byte} (hf : f.length ≤ 260) : State.Buffers (s.storeTx f) := by
  refine ⟨Memory.wf_writeBytes f txBase h.1, ?_, h.3, h.4, ?_, h.6, h.7, ?_⟩
  · intro c hc
    rcases Memory.mem_writeBytes f txBase hc with h' | h'
    · simp only [txBase] at h'
      simp only [inBuffer, Bool.or_eq_true, Bool.and_eq_true, decide_eq_true_eq]
      omega
    · exact h.2 c h'
  · simp only [State.storeTx_txLen, toNat_ofNat_count hf]; exact hf
  · rw [rxFrame_congr (s := s) (t := s.storeTx f) rfl]
    · exact h.8
    · intro i hi
      exact Memory.read_writeBytes_outside h.1 f txBase _ (by right; simp only [txBase, rxBase]; omega)

/-- What one decoder step from `u` leaves in `t` when it answers `v`: the frame of the step, the progress `p` on
CONTINUE, and for each verdict what it found. -/
structure StepOut (u t : State) (p : State → Prop) (v : Option Verdict) : Prop where
  buffers : t.Buffers
  frame : t = { u with mem := t.mem, rxCount := t.rxCount, decNeed := t.decNeed, decAcc := t.decAcc, rx := t.rx, rxTaken := t.rxTaken }
  tx : ∀ i, i < 260 → t.txByte i = u.txByte i
  cont : v = none → p t
  fails : match v with
    | none => True
    | some .ok => t.decAcc = 0 ∧ 3 ≤ t.rxCount.toNat
    | some .noReply => t.rxCount = 0
    | some .incompleteFrame => 1 ≤ t.rxCount.toNat
    | some .badLength => t.rxCount = 2 ∧ (t.rxByte 1).toNat < 3
    | some .checksumError => 3 ≤ t.rxCount.toNat ∧ t.decAcc ≠ 0
    | some .unexpectedHeader => t.rxCount = 1 ∧ t.rxByte 0 ≠ Config.kwpHeader

theorem buffers_rxConsume {u : State} (h : State.Buffers u) : State.Buffers u.rxConsume := ⟨h.1, h.2, h.3, h.4, h.5, h.6, h.7, h.8⟩
theorem buffers_setNeed {u : State} (h : State.Buffers u) (n) : State.Buffers (u.setNeed n) := ⟨h.1, h.2, h.3, h.4, h.5, h.6, h.7, h.8⟩

theorem storeRx_byte {u : State} (h : State.Buffers u) (hn : u.rxCount.toNat < 260) (r : Byte) :
   (u.storeRx r).rxByte u.rxCount.toNat = r ∧ (∀ i, i ≠ u.rxCount.toNat → (u.storeRx r).rxByte i = u.rxByte i) ∧
   (∀ i, i < 260 → (u.storeRx r).txByte i = u.txByte i) := by
  refine ⟨?_, ?_, ?_⟩
  · show (u.mem.write _ r).read _ = _; rw [Memory.read_write h.1, if_pos rfl]
  · intro i hi; show (u.mem.write _ r).read _ = _; rw [Memory.read_write h.1, if_neg (by omega)]; rfl
  · intro i hi; show (u.mem.write _ r).read _ = _; rw [Memory.read_write h.1, if_neg (by simp only [rxBase, txBase]; omega)]; rfl

theorem buffers_storeRx {u : State} (h : State.Buffers u) (hn : u.rxCount.toNat < 260) (r : Byte) : State.Buffers (u.storeRx r) := by
  have hb := storeRx_byte h hn r
  refine ⟨Memory.wf_write _ _ h.1, ?_, h.3, h.4, h.5, ?_, h.7, ?_⟩
  · intro c hc
    rcases Memory.mem_write hc with h' | h'
    · rw [h', show rxBase = 0x400 from rfl]; simp only [inBuffer, Bool.or_eq_true, Bool.and_eq_true, decide_eq_true_eq]; omega
    · exact h.2 c h'
  · simp only [State.storeRx_rxCount, toNat_count_succ hn]; omega
  · simp only [State.storeRx_decAcc, State.rxFrame, State.storeRx_rxCount, toNat_count_succ hn]
    rw [Memory.readBytes_succ, xorFold_concat, h.8]
    have e1 : (u.storeRx r).mem.readBytes rxBase u.rxCount.toNat = u.rxFrame :=
      Memory.readBytes_congr fun i hi => hb.2.1 i (by omega)
    rw [e1]
    congr 1
    exact hb.1.symm

/-- A decoder step that gets TIMEOUT. -/
theorem timeout_stepOut {u : State} (h : State.Buffers u) {p} : StepOut u u.rxConsume p (some u.timeoutVerdict) := by
  refine ⟨buffers_rxConsume h, rfl, fun _ _ => rfl, fun h => (by cases h), ?_⟩
  by_cases h0 : u.rxCount = 0
  · rw [State.timeoutVerdict, if_pos h0]; exact h0
  · rw [State.timeoutVerdict, if_neg h0]
    show 1 ≤ u.rxCount.toNat
    have : u.rxCount.toNat ≠ 0 := fun h' => h0 (BitVec.eq_of_toNat_eq h')
    omega

/-- DecStepDS2 (R103), once: what it leaves from a running DS2 decode. -/
theorem decStepDs2_stepOut {u : State} (h : State.Buffers u) (hp : u.ds2Progress) :
   StepOut u u.decStepDs2.2 State.ds2Progress u.decStepDs2.1 ∧
   (u.decStepDs2.1 = some .ok → u.decStepDs2.2.rxCount = zext16 (u.decStepDs2.2.rxByte 1)) := by
  cases ha : u.rxAnswer with
  | timeout => rw [decStepDs2_timeout ha]; exact ⟨timeout_stepOut h, fun h' => by
      simp only at h'; have := Option.some.inj h'; unfold State.timeoutVerdict at this; split at this <;> cases this⟩
  | byte r =>
    rw [decStepDs2_byte ha]
    have hcn : u.rxCount.toNat < 255 := by
      rcases Nat.lt_or_ge u.rxCount.toNat 2 with h' | h'
      · omega
      · have := hp.2 h'; rw [this.1, toNat_zext16] at this; have := (u.rxByte 1).isLt; omega
    have hb1 := buffers_rxConsume h
    have hn : u.rxConsume.rxCount.toNat < 260 := by show u.rxCount.toNat < 260; omega
    have hb := buffers_storeRx hb1 hn r
    have hby := storeRx_byte hb1 hn r
    have hcount : (u.rxConsume.storeRx r).rxCount.toNat = u.rxCount.toNat + 1 := toNat_count_succ (by show u.rxCount.toNat < 260; omega)
    rw [State.ds2Byte]
    by_cases h1 : u.rxCount = 1
    · rw [if_pos (show u.rxConsume.rxCount = 1 from h1)]
      have hr1 : (u.rxConsume.storeRx r).rxByte 1 = r := by
        have := hby.1; rw [show u.rxConsume.rxCount.toNat = 1 from by show u.rxCount.toNat = 1; rw [h1]; rfl] at this; exact this
      have hc2 : (u.rxConsume.storeRx r).rxCount = 2 := by show u.rxCount + 1 = 2; rw [h1]; rfl
      by_cases h3 : r.toNat < 3
      · rw [if_pos h3]
        exact ⟨⟨hb, rfl, hby.2.2, fun h => (by cases h), hc2, by rw [hr1]; exact h3⟩, fun h => by cases h⟩
      · rw [if_neg h3]
        have hne : ((u.rxConsume.storeRx r).setNeed (zext16 r)).frameEnd = none := by
          rw [State.frameEnd, if_neg]
          rintro ⟨_, h5⟩
          have := congrArg BitVec.toNat h5
          rw [show ((u.rxConsume.storeRx r).setNeed (zext16 r)).rxCount = 2 from hc2, show ((u.rxConsume.storeRx r).setNeed (zext16 r)).decNeed = zext16 r from rfl, toNat_zext16] at this
          have h2 : (2:Half).toNat = 2 := rfl
          omega
        rw [hne]
        refine ⟨⟨buffers_setNeed hb _, rfl, hby.2.2, fun _ => ⟨fun h => ?_, fun _ => ⟨?_, ?_, ?_⟩⟩, trivial⟩, fun h => by cases h⟩
        · rw [show ((u.rxConsume.storeRx r).setNeed (zext16 r)).rxCount = 2 from hc2] at h; exact absurd h (by decide)
        · show zext16 r = zext16 ((u.rxConsume.storeRx r).rxByte 1); rw [hr1]
        · show 3 ≤ (zext16 r).toNat; rw [toNat_zext16]; omega
        · show (u.rxConsume.storeRx r).rxCount.toNat < (zext16 r).toNat; rw [hc2, toNat_zext16]; have h2 : (2:Half).toNat = 2 := rfl; omega
    · rw [if_neg (show ¬ u.rxConsume.rxCount = 1 from h1)]
      have hd : (u.rxConsume.storeRx r).decNeed = u.decNeed := rfl
      rcases Nat.lt_or_ge u.rxCount.toNat 2 with h2 | h2
      · have h0 : u.rxCount.toNat = 0 := by
          have : u.rxCount.toNat ≠ 1 := fun h' => h1 (BitVec.eq_of_toNat_eq h')
          omega
        have hz := hp.1 (by omega)
        have hne : (u.rxConsume.storeRx r).frameEnd = none := by
          rw [State.frameEnd, if_neg]
          rintro ⟨h4, _⟩
          exact h4 (hd.trans hz)
        rw [hne]
        refine ⟨⟨hb, rfl, hby.2.2, fun _ => ⟨fun _ => hz, fun h => ?_⟩, trivial⟩, fun h => by cases h⟩
        rw [hcount] at h; omega
      · obtain ⟨q1, q2, q3⟩ := hp.2 h2
        have hr1 : (u.rxConsume.storeRx r).rxByte 1 = u.rxByte 1 := hby.2.1 1 (by show 1 ≠ u.rxCount.toNat; omega)
        have hne0 : u.decNeed ≠ 0 := fun h => by rw [h] at q2; exact absurd q2 (by decide)
        by_cases he : u.rxCount.toNat + 1 = u.decNeed.toNat
        · have heq : (u.rxConsume.storeRx r).rxCount = u.decNeed := BitVec.eq_of_toNat_eq (hcount.trans he)
          have hfe : (u.rxConsume.storeRx r).frameEnd = some (if (u.rxConsume.storeRx r).decAcc = 0x00 then .ok else .checksumError) := by
            rw [State.frameEnd, if_pos ⟨hne0, heq⟩]
          rw [hfe]
          refine ⟨⟨hb, rfl, hby.2.2, fun h => (by cases h), ?_⟩, fun _ => ?_⟩
          · by_cases h0 : (u.rxConsume.storeRx r).decAcc = 0x00
            · rw [if_pos h0]; exact ⟨h0, by rw [hcount]; omega⟩
            · rw [if_neg h0]; exact ⟨by rw [hcount]; omega, h0⟩
          · rw [heq, q1, hr1]
        · have hne : (u.rxConsume.storeRx r).frameEnd = none := by
            rw [State.frameEnd, if_neg]
            rintro ⟨_, h5⟩
            exact he (hcount.symm.trans (congrArg BitVec.toNat h5))
          rw [hne]
          refine ⟨⟨hb, rfl, hby.2.2, fun _ => ⟨fun h => ?_, fun _ => ⟨?_, q2, ?_⟩⟩, trivial⟩, fun h => by cases h⟩
          · rw [hcount] at h; omega
          · rw [hd, hr1]; exact q1
          · rw [hcount, hd]; omega

/-- DecStepKWP (R123), once: what it leaves from a running KWP2000 decode. -/
theorem decStepKwp_stepOut {u : State} (h : State.Buffers u) (hp : u.kwpProgress) :
   StepOut u u.decStepKwp.2 State.kwpProgress u.decStepKwp.1 ∧
   (u.decStepKwp.1 = some .ok → u.decStepKwp.2.rxCount = zext16 (u.decStepKwp.2.rxByte 3) + 5) := by
  cases ha : u.rxAnswer with
  | timeout => rw [decStepKwp_timeout ha]; exact ⟨timeout_stepOut h, fun h' => by
      simp only at h'; have := Option.some.inj h'; unfold State.timeoutVerdict at this; split at this <;> cases this⟩
  | byte r =>
    rw [decStepKwp_byte ha]
    obtain ⟨ph, pz, pn⟩ := hp
    have hcn : u.rxCount.toNat < 260 := by
      rcases Nat.lt_or_ge u.rxCount.toNat 4 with h' | h'
      · omega
      · have := pn h'; rw [this.1, toNat_zext16_add] at this; have := (u.rxByte 3).isLt; omega
    have hb1 := buffers_rxConsume h
    have hn : u.rxConsume.rxCount.toNat < 260 := hcn
    have hb := buffers_storeRx hb1 hn r
    have hby := storeRx_byte hb1 hn r
    have hcount : (u.rxConsume.storeRx r).rxCount.toNat = u.rxCount.toNat + 1 := toNat_count_succ hn
    have hd : (u.rxConsume.storeRx r).decNeed = u.decNeed := rfl
    rw [State.kwpByte]
    by_cases hh : u.rxCount = 0 ∧ r ≠ Config.kwpHeader
    · rw [if_pos (show u.rxConsume.rxCount = 0 ∧ r ≠ Config.kwpHeader from hh)]
      refine ⟨⟨hb, rfl, hby.2.2, fun h => (by cases h), ?_, ?_⟩, fun h => by cases h⟩
      · show u.rxCount + 1 = 1; rw [hh.1]; rfl
      · have := hby.1; rw [show u.rxConsume.rxCount.toNat = 0 from by show u.rxCount.toNat = 0; rw [hh.1]; rfl] at this
        rw [this]; exact hh.2
    · rw [if_neg (show ¬ (u.rxConsume.rxCount = 0 ∧ r ≠ Config.kwpHeader) from hh)]
      have hhead : (u.rxConsume.storeRx r).rxByte 0 = Config.kwpHeader := by
        by_cases h0 : u.rxCount.toNat = 0
        · have := hby.1; rw [show u.rxConsume.rxCount.toNat = 0 from h0] at this
          rw [this]; by_contra hc; exact hh ⟨BitVec.eq_of_toNat_eq h0, hc⟩
        · rw [hby.2.1 0 (by show 0 ≠ u.rxCount.toNat; omega)]; exact ph (by omega)
      by_cases h3 : u.rxCount = 3
      · have h3' : u.rxCount.toNat = 3 := by rw [h3]; rfl
        rw [if_pos (show u.rxConsume.rxCount = 3 from h3)]
        have hr3 : (u.rxConsume.storeRx r).rxByte 3 = r := by
          have := hby.1; rw [show u.rxConsume.rxCount.toNat = 3 from h3'] at this; exact this
        have hne : ((u.rxConsume.storeRx r).setNeed (zext16 r + 5)).frameEnd = none := by
          rw [State.frameEnd, if_neg]
          rintro ⟨_, h5⟩
          have := congrArg BitVec.toNat h5
          rw [show ((u.rxConsume.storeRx r).setNeed (zext16 r + 5)).decNeed = zext16 r + 5 from rfl, toNat_zext16_add, show ((u.rxConsume.storeRx r).setNeed (zext16 r + 5)).rxCount = (u.rxConsume.storeRx r).rxCount from rfl, hcount] at this
          omega
        rw [hne]
        refine ⟨⟨buffers_setNeed hb _, rfl, hby.2.2, fun _ => ⟨fun _ => hhead, fun h => ?_, fun _ => ⟨?_, ?_⟩⟩, trivial⟩, fun h => by cases h⟩
        · rw [show ((u.rxConsume.storeRx r).setNeed (zext16 r + 5)).rxCount = (u.rxConsume.storeRx r).rxCount from rfl, hcount] at h; omega
        · show zext16 r + 5 = zext16 ((u.rxConsume.storeRx r).rxByte 3) + 5; rw [hr3]
        · show (u.rxConsume.storeRx r).rxCount.toNat < (zext16 r + 5).toNat; rw [hcount, toNat_zext16_add]; omega
      · rw [if_neg (show ¬ u.rxConsume.rxCount = 3 from h3)]
        have h3' : u.rxCount.toNat ≠ 3 := fun h' => h3 (BitVec.eq_of_toNat_eq h')
        rcases Nat.lt_or_ge u.rxCount.toNat 4 with h2 | h2
        · have hz := pz h2
          have hne : (u.rxConsume.storeRx r).frameEnd = none := by
            rw [State.frameEnd, if_neg]
            rintro ⟨h4, _⟩
            exact h4 (hd.trans hz)
          rw [hne]
          refine ⟨⟨hb, rfl, hby.2.2, fun _ => ⟨fun _ => hhead, fun _ => hz, fun h => ?_⟩, trivial⟩, fun h => by cases h⟩
          rw [hcount] at h; omega
        · obtain ⟨q1, q3⟩ := pn h2
          have hr1 : (u.rxConsume.storeRx r).rxByte 3 = u.rxByte 3 := hby.2.1 3 (by show 3 ≠ u.rxCount.toNat; omega)
          have hne0 : u.decNeed ≠ 0 := fun h => by rw [h] at q3; exact absurd q3 (by simp)
          by_cases he : u.rxCount.toNat + 1 = u.decNeed.toNat
          · have heq : (u.rxConsume.storeRx r).rxCount = u.decNeed := BitVec.eq_of_toNat_eq (hcount.trans he)
            have hfe : (u.rxConsume.storeRx r).frameEnd = some (if (u.rxConsume.storeRx r).decAcc = 0x00 then .ok else .checksumError) := by
              rw [State.frameEnd, if_pos ⟨hne0, heq⟩]
            rw [hfe]
            refine ⟨⟨hb, rfl, hby.2.2, fun h => (by cases h), ?_⟩, fun _ => ?_⟩
            · by_cases h0 : (u.rxConsume.storeRx r).decAcc = 0x00
              · rw [if_pos h0]; exact ⟨h0, by rw [hcount]; omega⟩
              · rw [if_neg h0]; exact ⟨by rw [hcount]; omega, h0⟩
            · rw [heq, q1, hr1]
          · have hne : (u.rxConsume.storeRx r).frameEnd = none := by
              rw [State.frameEnd, if_neg]
              rintro ⟨_, h5⟩
              exact he (hcount.symm.trans (congrArg BitVec.toNat h5))
            rw [hne]
            refine ⟨⟨hb, rfl, hby.2.2, fun _ => ⟨fun _ => hhead, fun h => ?_, fun _ => ⟨?_, ?_⟩⟩, trivial⟩, fun h => by cases h⟩
            · rw [hcount] at h; omega
            · rw [hd, hr1]; exact q1
            · rw [hcount, hd]; omega

end Sys2Proof.Machine
end

