-- ==== Sys2Proof/Laws/Run.lean ====
section
/-! SUPPORT. Runs of the machine over a frame's bytes: what is left when no verdict was given, and at a frame's
end. -/

namespace Sys2Proof.Machine

/-- A run that begins with a step to a next state. -/
theorem run_step {s t : State} (k : Nat) (h : step s = .next t) :
    Host.Core.run core (k + 1) s = Host.Core.run core k t := by
  rw [show Host.Core.run core (k + 1) s = _ from Host.Core.run.eq_2 core s k]
  have h' : core.step s = .next t := h
  rw [h']

theorem run_step_fault {s : State} {r : Fault} (k : Nat) (h : step s = .fault r) :
    Host.Core.run core (k + 1) s = .fault r := by
  rw [show Host.Core.run core (k + 1) s = _ from Host.Core.run.eq_2 core s k]
  have h' : core.step s = .fault r := h
  rw [h']

theorem run_step_refused {s : State} {r : Refusal} (k : Nat) (h : step s = .refused r) :
    Host.Core.run core (k + 1) s = .refused r := by
  rw [show Host.Core.run core (k + 1) s = _ from Host.Core.run.eq_2 core s k]
  have h' : core.step s = .refused r := h
  rw [h']

@[simp] theorem run_zero (s : State) : Host.Core.run core 0 s = .next s :=
  Host.Core.run.eq_1 core s

/-- A run of one step. -/
theorem run_one (s : State) : Host.Core.run core 1 s = step s := by
  cases h : step s with
  | next t => exact (run_step 0 h).trans (run_zero t)
  | fault r => exact run_step_fault 0 h
  | refused r => exact run_step_refused 0 h

/-- A run of `k` steps and then `n` more. -/
theorem run_add {k n : Nat} {s t : State} (h : Host.Core.run core k s = .next t) :
    Host.Core.run core (k + n) s = Host.Core.run core n t := by
  induction k generalizing s with
  | zero =>
    rw [run_zero] at h
    injection h with h
    rw [Nat.zero_add, h]
  | succ k ih =>
    cases hs : step s with
    | next u =>
      rw [run_step k hs] at h
      rw [Nat.add_right_comm, run_step _ hs]
      exact ih h
    | fault r => rw [run_step_fault k hs] at h; cases h
    | refused r => rw [run_step_refused k hs] at h; cases h

/-- One step more, at the end of a run. -/
theorem run_succ {k : Nat} {s t : State} (h : Host.Core.run core k s = .next t) :
    Host.Core.run core (k + 1) s = step t := by
  rw [run_add h, run_one]

/-- The start of a frame is a run of no bytes. -/
theorem fed_nil {s : State} (hc : s.rxCount = 0) (hn : s.decNeed = 0) (ha : s.decAcc = 0x00) : s.fed 0 [] = s := by
  cases s
  simp only at hc hn ha
  subst hc hn ha
  rfl

/-- Short of the frame's end no verdict is given. -/
theorem frameEnd_fed_short {s : State} {need : Half} {p : List Byte} (hp : p.length ≤ 260)
    (h : need = 0 ∨ p.length ≠ need.toNat) : (s.fed need p).frameEnd = none := by
  rw [State.frameEnd, if_neg]
  rintro ⟨h1, h2⟩
  rcases h with h | h
  · exact h1 h
  · apply h
    have := congrArg BitVec.toNat h2
    simpa [State.fed, toNat_ofNat_count hp] using this

/-- At the frame's end the verdict is its checksum's. -/
theorem frameEnd_fed_whole {s : State} {need : Half} {p : List Byte} (hp : p.length ≤ 260) (h0 : 0 < p.length)
    (h : need.toNat = p.length) :
    (s.fed need p).frameEnd = some (if xorFold p = 0x00 then .ok else .checksumError) := by
  rw [State.frameEnd, if_pos]
  · rfl
  · refine ⟨?_, ?_⟩
    · intro hz
      have : need = 0 := hz
      rw [this] at h
      simp at h
      omega
    · apply BitVec.eq_of_toNat_eq
      simp [State.fed, toNat_ofNat_count hp, h]

theorem ds2Need_toNat {p : List Byte} (h : 2 ≤ p.length) : (ds2Need p).toNat = (p.getD 1 0).toNat := by
  rw [ds2Need, if_neg (by omega), zext16, BitVec.toNat_setWidth,
    Nat.mod_eq_of_lt (by have := (p.getD 1 0).isLt; omega)]

theorem kwpNeed_toNat {p : List Byte} (h : 4 ≤ p.length) : (kwpNeed p).toNat = (p.getD 3 0).toNat + 5 := by
  have hb := (p.getD 3 0).isLt
  rw [kwpNeed, if_neg (by omega), zext16, BitVec.toNat_add, BitVec.toNat_setWidth,
    show (5 : Half).toNat = 5 from rfl]
  omega

theorem getD_append_left {p q : List Byte} {i : Nat} (h : i < p.length) : (p ++ q).getD i 0 = p.getD i 0 := by
  simp [List.getElem?_append_left h]

section
variable {s : State} {fin : Verdict → State → State} {n : Nat} {rest : List RxAnswer} {sched : List Turn}

/-- A DS2 frame's first bytes, short of its end. -/
theorem run_ds2_short (hr : s.Runs State.decStepDs2 fin) (hc : s.rxCount = 0) (hn : s.decNeed = 0)
    (ha : s.decAcc = 0x00) (hs : s.schedule = List.replicate n .engine ++ sched) (q : List Byte) :
    ∀ p : List Byte, s.rx = (p ++ q).map RxAnswer.byte ++ rest → p.length ≤ n →
      (2 ≤ p.length → 3 ≤ (p.getD 1 0).toNat ∧ p.length < (p.getD 1 0).toNat) →
      Host.Core.run core p.length s = .next (s.fed (ds2Need p) p) := by
  intro p
  induction p using List.reverseRecOn generalizing q with
  | nil =>
    intro _ _ _
    rw [List.length_nil, run_zero, show ds2Need [] = 0 from rfl, fed_nil hc hn ha]
  | append_singleton p b ih =>
    intro hrx hle hlen
    rw [List.length_append, List.length_singleton] at hle hlen ⊢
    have hlt : p.length < 255 := by
      rcases Nat.lt_or_ge p.length 1 with h | h
      · omega
      · have := hlen (by omega)
        have hb := ((p ++ [b]).getD 1 0).isLt
        omega
    have hprev := ih (b :: q) (by simpa using hrx) (by omega) (fun h2 => by
      have := hlen (by omega)
      rw [getD_append_left (by omega)] at this
      omega)
    rw [run_succ hprev, step_fed_ds2 (rest := q.map RxAnswer.byte ++ rest) hr (by simpa using hrx) hs (by omega)
      (by omega)]
    have hend : ¬ (p.length = 1 ∧ b.toNat < 3) := by
      rintro ⟨h1, h3⟩
      have := hlen (by omega)
      obtain ⟨a, rfl⟩ := List.length_eq_one_iff.1 h1
      simp at this
      omega
    rw [if_neg hend, frameEnd_fed_short (by simp; omega)]
    · rfl
    · rcases Nat.lt_or_ge p.length 1 with h | h
      · left; rw [ds2Need, if_pos (by rw [List.length_append, List.length_singleton]; omega)]
      · right
        have := hlen (by omega)
        rw [ds2Need_toNat (by rw [List.length_append, List.length_singleton]; omega), List.length_append,
          List.length_singleton]
        omega

/-- A whole DS2 frame: its verdict is its checksum's. -/
theorem run_ds2_whole (hr : s.Runs State.decStepDs2 fin) (hc : s.rxCount = 0) (hn : s.decNeed = 0)
    (ha : s.decAcc = 0x00) (hs : s.schedule = List.replicate n .engine ++ sched) {f : List Byte}
    (hrx : s.rx = f.map RxAnswer.byte ++ rest) (hle : f.length ≤ n) (h3 : 3 ≤ f.length)
    (hl : (f.getD 1 0).toNat = f.length) :
    Host.Core.run core f.length s =
      .next (fin (if xorFold f = 0x00 then .ok else .checksumError) (s.fed (ds2Need f) f)) := by
  rcases List.eq_nil_or_concat f with rfl | ⟨p, b, rfl⟩
  · simp at h3
  · rw [List.concat_eq_append] at *
    have hb := ((p ++ [b]).getD 1 0).isLt
    rw [List.length_append, List.length_singleton] at h3 hl hle ⊢
    have hprev := run_ds2_short (rest := rest) hr hc hn ha hs [b] p hrx (by omega) (fun h2 => by
      rw [← getD_append_left (q := [b]) (by omega), hl]
      omega)
    rw [run_succ hprev, step_fed_ds2 (rest := rest) hr hrx hs (by omega) (by omega), if_neg (by omega),
      frameEnd_fed_whole (by simp; omega) (by simp)]
    · rfl
    · rw [ds2Need_toNat (by rw [List.length_append, List.length_singleton]; omega), hl, List.length_append,
        List.length_singleton]

/-- A KWP2000 frame's first bytes, short of its end. -/
theorem run_kwp_short (hr : s.Runs State.decStepKwp fin) (hc : s.rxCount = 0) (hn : s.decNeed = 0)
    (ha : s.decAcc = 0x00) (hs : s.schedule = List.replicate n .engine ++ sched) (q : List Byte) :
    ∀ p : List Byte, s.rx = (p ++ q).map RxAnswer.byte ++ rest → p.length ≤ n →
      (1 ≤ p.length → p.getD 0 0 = Config.kwpHeader) → (4 ≤ p.length → p.length < (p.getD 3 0).toNat + 5) →
      Host.Core.run core p.length s = .next (s.fed (kwpNeed p) p) := by
  intro p
  induction p using List.reverseRecOn generalizing q with
  | nil =>
    intro _ _ _ _
    rw [List.length_nil, run_zero, show kwpNeed [] = 0 from rfl, fed_nil hc hn ha]
  | append_singleton p b ih =>
    intro hrx hle hhead hlen
    rw [List.length_append, List.length_singleton] at hle hlen hhead ⊢
    have hlt : p.length < 260 := by
      rcases Nat.lt_or_ge p.length 3 with h | h
      · omega
      · have := hlen (by omega)
        have hb := ((p ++ [b]).getD 3 0).isLt
        omega
    have hprev := ih (b :: q) (by simpa using hrx) (by omega)
      (fun h1 => by rw [← getD_append_left (q := [b]) (by omega)]; exact hhead (by omega)) (fun h2 => by
        have := hlen (by omega)
        rw [getD_append_left (by omega)] at this
        omega)
    rw [run_succ hprev, step_fed_kwp (rest := q.map RxAnswer.byte ++ rest) hr (by simpa using hrx) hs (by omega)
      (by omega)]
    have hend : ¬ (p.length = 0 ∧ b ≠ Config.kwpHeader) := by
      rintro ⟨h1, h3⟩
      have hp := List.length_eq_zero_iff.1 h1
      subst hp
      exact h3 (hhead (by omega))
    rw [if_neg hend, frameEnd_fed_short (by simp; omega)]
    · rfl
    · rcases Nat.lt_or_ge p.length 3 with h | h
      · left; rw [kwpNeed, if_pos (by rw [List.length_append, List.length_singleton]; omega)]
      · right
        have := hlen (by omega)
        rw [kwpNeed_toNat (by rw [List.length_append, List.length_singleton]; omega), List.length_append,
          List.length_singleton]
        omega

/-- A whole KWP2000 frame: its verdict is its checksum's. -/
theorem run_kwp_whole (hr : s.Runs State.decStepKwp fin) (hc : s.rxCount = 0) (hn : s.decNeed = 0)
    (ha : s.decAcc = 0x00) (hs : s.schedule = List.replicate n .engine ++ sched) {f : List Byte}
    (hrx : s.rx = f.map RxAnswer.byte ++ rest) (hle : f.length ≤ n) (h5 : 5 ≤ f.length)
    (h0 : f.getD 0 0 = Config.kwpHeader) (hl : (f.getD 3 0).toNat + 5 = f.length) :
    Host.Core.run core f.length s =
      .next (fin (if xorFold f = 0x00 then .ok else .checksumError) (s.fed (kwpNeed f) f)) := by
  rcases List.eq_nil_or_concat f with rfl | ⟨p, b, rfl⟩
  · simp at h5
  · rw [List.concat_eq_append] at *
    have hb := ((p ++ [b]).getD 3 0).isLt
    rw [List.length_append, List.length_singleton] at h5 hl hle ⊢
    have hprev := run_kwp_short (rest := rest) hr hc hn ha hs [b] p hrx (by omega)
      (fun _ => by rw [← getD_append_left (q := [b]) (by omega), h0]) (fun h2 => by
      rw [← getD_append_left (q := [b]) (by omega)]
      omega)
    rw [run_succ hprev, step_fed_kwp (rest := rest) hr hrx hs (by omega) (by omega), if_neg (by omega),
      frameEnd_fed_whole (by simp; omega) (by simp)]
    · rfl
    · rw [kwpNeed_toNat (by rw [List.length_append, List.length_singleton]; omega), hl, List.length_append,
        List.length_singleton]

end
end Sys2Proof.Machine
end

