-- ==== Sys2Proof/Laws/Order.lean ====
section
/-! SUPPORT. The order of steps (R68): what no step of the Engine changes of the Host's program and the order, and how
the places of a run are counted. -/

namespace Sys2Proof.Machine

/-! ## One step and the order -/

/-- A decoder step takes one answer and leaves the program and the order. -/
structure State.OneRead (s t : State) : Prop where
  rxTaken : t.rxTaken = s.rxTaken + 1
  program : t.program = s.program
  schedule : t.schedule = s.schedule
  turnsTaken : t.turnsTaken = s.turnsTaken

theorem decStepDs2_oneRead (s : State) : s.OneRead s.decStepDs2.2 := by
  cases ha : s.rxAnswer with
  | timeout => rw [decStepDs2_timeout ha]; exact ⟨rfl, rfl, rfl, rfl⟩
  | byte r =>
    rw [decStepDs2_byte ha, State.ds2Byte]
    repeat' split
    all_goals exact ⟨rfl, rfl, rfl, rfl⟩

theorem decStepKwp_oneRead (s : State) : s.OneRead s.decStepKwp.2 := by
  cases ha : s.rxAnswer with
  | timeout => rw [decStepKwp_timeout ha]; exact ⟨rfl, rfl, rfl, rfl⟩
  | byte r =>
    rw [decStepKwp_byte ha, State.kwpByte]
    repeat' split
    all_goals exact ⟨rfl, rfl, rfl, rfl⟩

/-- The end of a phase reads nothing and leaves the program and the order. -/
def KeepsOrder (fin : Verdict → State → State) : Prop :=
  ∀ v u, (fin v u).rxTaken = u.rxTaken ∧ (fin v u).program = u.program ∧ (fin v u).schedule = u.schedule ∧
    (fin v u).turnsTaken = u.turnsTaken

theorem decDs2Finish_keepsOrder : KeepsOrder State.decDs2Finish := fun v _ => by cases v <;> exact ⟨rfl, rfl, rfl, rfl⟩

theorem decKwpFinish_keepsOrder : KeepsOrder State.decKwpFinish := fun v _ => by cases v <;> exact ⟨rfl, rfl, rfl, rfl⟩

theorem echoFinish_keepsOrder : KeepsOrder State.echoFinish := fun v _ => by cases v <;> exact ⟨rfl, rfl, rfl, rfl⟩

theorem replyDs2Finish_keepsOrder : KeepsOrder State.replyDs2Finish := fun v u => by
  cases v
  · simp only [State.replyDs2Finish, State.replyDs2]
    repeat' split
    all_goals exact ⟨rfl, rfl, rfl, rfl⟩
  all_goals exact ⟨rfl, rfl, rfl, rfl⟩

theorem replyKwpFinish_keepsOrder : KeepsOrder State.replyKwpFinish := fun v _ => by
  cases v <;> exact ⟨rfl, rfl, rfl, rfl⟩

theorem phaseStep_oneRead {s : State} {dec : Option Verdict × State} {fin : Verdict → State → State}
    (h : s.OneRead dec.2) (hf : KeepsOrder fin) : s.OneRead (phaseStep dec fin) := by
  rw [phaseStep]
  split
  · exact h
  · obtain ⟨h1, h2, h3, h4⟩ := hf ‹_› dec.2
    exact ⟨h1.trans h.1, h2.trans h.2, h3.trans h.3, h4.trans h.4⟩

/-- The Engine's step while BUSY: one read, and the program and the order as they were. -/
theorem engineStep_oneRead {s t : State} (hb : s.busy = true) (h : engineStep s = .next t) : s.OneRead t := by
  have hb' : s.phase.busy = true := hb
  have h2 := decStepDs2_oneRead s
  have h3 := decStepKwp_oneRead s
  rw [engineStep] at h
  split at h
  · cases h
  · cases hp : s.phase <;> rw [hp] at hb' h <;> try (cases hb')
    all_goals
      simp only at h
      split at h <;> cases h
    · exact phaseStep_oneRead h2 decDs2Finish_keepsOrder
    · exact phaseStep_oneRead h3 decKwpFinish_keepsOrder
    · exact phaseStep_oneRead h2 echoFinish_keepsOrder
    · exact phaseStep_oneRead h3 echoFinish_keepsOrder
    · exact phaseStep_oneRead h2 replyDs2Finish_keepsOrder
    · exact phaseStep_oneRead h3 replyKwpFinish_keepsOrder

/-- Every step takes one place of the order. -/
theorem step_order {s t : State} (h : step s = .next t) :
    t.schedule = s.schedule.tail ∧ t.turnsTaken = s.turnsTaken + 1 := by
  rw [step] at h
  split at h
  · have := keeps_hostTurn h
    exact ⟨this.2.2.1, this.2.2.2.1⟩
  · rw [engineTurn] at h
    split at h
    · have := engineStep_oneRead ‹_› h; exact ⟨this.schedule, this.turnsTaken⟩
    · cases h; exact ⟨rfl, rfl⟩
  · cases h; exact ⟨rfl, rfl⟩

/-! ## Counting the places of a run -/

theorem turnAt_zero (s : State) : s.turnAt 0 = s.nextTurn := by
  rw [State.turnAt, State.nextTurn]
  cases s.schedule <;> rfl

/-- The next state's places are this one's, one further. -/
theorem turnAt_step {s t : State} (h : step s = .next t) (k : Nat) : t.turnAt k = s.turnAt (k + 1) := by
  obtain ⟨h1, h2⟩ := step_order h
  rw [State.turnAt, State.turnAt, h1, h2]
  cases s.schedule with
  | nil => simp only [List.tail_nil, List.getElem?_nil]; congr 1; omega
  | cons a l =>
    rw [List.tail_cons, List.getElem?_cons_succ]
    cases l[k]? with
    | none => simp only; congr 1; omega
    | some _ => rfl

theorem turnAt_run {k : Nat} {s t : State} (h : Host.Core.run core k s = .next t) (j : Nat) :
    t.turnAt j = s.turnAt (k + j) := by
  induction k generalizing s with
  | zero => rw [run_zero] at h; cases h; rw [Nat.zero_add]
  | succ k ih =>
    cases hs : step s with
    | next u => rw [run_step k hs] at h; rw [ih h, turnAt_step hs]; congr 1; omega
    | fault r => rw [run_step_fault k hs] at h; cases h
    | refused r => rw [run_step_refused k hs] at h; cases h

/-- The places the schedule lists. -/
theorem turnAt_prefix {s : State} {l rest : List Turn} (h : s.schedule = l ++ rest) {j : Nat} (hj : j < l.length) :
    s.turnAt j = l[j] := by
  rw [State.turnAt, h, List.getElem?_append_left hj, List.getElem?_eq_getElem hj]

/-- How many of the places the schedule lists are the Engine's. -/
theorem engineTurns_prefix {s : State} {l rest : List Turn} (h : s.schedule = l ++ rest) :
    s.engineTurns l.length = l.countP (· == .engine) := by
  have hl : (List.range l.length).map s.turnAt = l :=
    List.ext_getElem (by simp) fun j _ h2 => by simp [turnAt_prefix h h2]
  conv_rhs => rw [← hl, List.countP_map]
  rfl

@[simp] theorem engineTurns_zero (s : State) : s.engineTurns 0 = 0 := rfl

/-- One place more at the front of a run. -/
theorem engineTurns_step {s t : State} (h : step s = .next t) (k : Nat) :
    s.engineTurns (k + 1) = (if s.nextTurn = .engine then 1 else 0) + t.engineTurns k := by
  have ht : t.engineTurns k = (List.range k).countP fun j => s.turnAt (j + 1) == .engine :=
    List.countP_congr fun j _ => by simp only [turnAt_step h]
  rw [ht, State.engineTurns, List.range_succ_eq_map, List.countP_cons, List.countP_map, Nat.add_comm, turnAt_zero]
  congr 1
  by_cases he : s.nextTurn = .engine <;> simp [he]

end Sys2Proof.Machine
end

