-- ==== Sys2Proof/Laws/PerInstr.lean ====
section
/-! SUPPORT. The fields of a HACC32 word (R73), and per instruction: its encoding is never a malformed word. -/

namespace Sys2Proof

theorem toNat_haccWord (w : BitVec 1) (a : HostAddr) (d : Half) :
    (haccWord w a d).toNat = w.toNat * 2 ^ 31 + a.toNat * 2 ^ 16 + d.toNat := by
  have ha := a.isLt
  have hd := d.isLt
  simp only [haccWord, BitVec.toNat_append]
  rw [← Nat.shiftLeft_add_eq_or_of_lt hd, ← Nat.shiftLeft_add_eq_or_of_lt ha,
    ← Nat.shiftLeft_add_eq_or_of_lt (by decide)]
  simp [Nat.shiftLeft_eq]
  omega

@[simp] theorem haccZero_haccWord (w : BitVec 1) (a : HostAddr) (d : Half) : haccZero (haccWord w a d) = 0 := by
  have ha := a.isLt
  have hd := d.isLt
  rw [← BitVec.toNat_inj]
  simp [haccZero, Nat.shiftRight_eq_div_pow, toNat_haccWord]
  omega

@[simp] theorem haccW_haccWord (w : BitVec 1) (a : HostAddr) (d : Half) : haccW (haccWord w a d) = w := by
  have hw := w.isLt
  have ha := a.isLt
  have hd := d.isLt
  rw [← BitVec.toNat_inj]
  simp only [haccW, BitVec.extractLsb'_toNat, Nat.shiftRight_eq_div_pow, toNat_haccWord]
  omega

@[simp] theorem haccAddr_haccWord (w : BitVec 1) (a : HostAddr) (d : Half) : haccAddr (haccWord w a d) = a := by
  have ha := a.isLt
  have hd := d.isLt
  rw [← BitVec.toNat_inj]
  simp only [haccAddr, BitVec.extractLsb'_toNat, Nat.shiftRight_eq_div_pow, toNat_haccWord]
  omega

@[simp] theorem haccData_haccWord (w : BitVec 1) (a : HostAddr) (d : Half) : haccData (haccWord w a d) = d := by
  have hd := d.isLt
  rw [← BitVec.toNat_inj]
  simp only [haccData, BitVec.extractLsb'_toNat, Nat.shiftRight_eq_div_pow, toNat_haccWord]
  omega

namespace Laws.Encoded

/-- R73: an instruction's encoding is a word a host program may hold. -/
def Statement (i : Instr) : Prop := Machine.stmtOk (.word (encode i)) = true

theorem csum : Statement .csum := rfl

theorem encDs2 : Statement .encDs2 := rfl

theorem encKwp : Statement .encKwp := rfl

theorem decDs2 : Statement .decDs2 := rfl

theorem decKwp : Statement .decKwp := rfl

theorem xactDs2 : Statement .xactDs2 := rfl

theorem xactKwp : Statement .xactKwp := rfl

theorem illegal (code : Byte) : Statement (.illegal code) := rfl

theorem hwr (addr : HostAddr) (data : Half) : Statement (.hwr addr data) := by
  simp [Statement, Machine.stmtOk, encode, decode, decodeHacc32, Except.isOk, Except.toBool]

theorem hrd (addr : HostAddr) : Statement (.hrd addr) := by
  simp [Statement, Machine.stmtOk, encode, decode, decodeHacc32, Except.isOk, Except.toBool]

end Laws.Encoded
end Sys2Proof
end

