-- ==== Sys2Proof/Machine/Assembler.lean ====
section
/-! DEFINITION. The text of a host program (spec/30_encoding.md R83, R84): lines, comments, names and numbers, read
into the statements that `AsmStmt.expand` expands. The conventions that R83 leaves open are in
notes/assumptions/11.md and, for characters and lines, notes/assumptions/14.md. -/

namespace Sys2Proof.Machine

/-- A token of a line. -/
inductive Token where
  | word (w : List Char)
  | comma
  | plus
  | leftBracket
  | rightBracket
  deriving DecidableEq, Repr

/-- A character of a name or of a number: an ASCII letter, a digit or `_`. DESIGN CHOICE, notes/assumptions/14.md. -/
def isWordChar (c : Char) : Bool :=
  ('a' ≤ c && c ≤ 'z') || ('A' ≤ c && c ≤ 'Z') || ('0' ≤ c && c ≤ '9') || c == '_'

/-- The token a mark stands for. -/
def markToken (c : Char) : Option Token :=
  if c == ',' then some .comma
  else if c == '+' then some .plus
  else if c == '[' then some .leftBracket
  else if c == ']' then some .rightBracket
  else none

/-- The word that is being read, put before the tokens after it. -/
def endWord (w : List Char) (ts : List Token) : List Token :=
  if w.isEmpty then ts else .word w.reverse :: ts

/-- The tokens of a line, up to its comment (R83: `;` starts a comment); `w` is the word that is being read, last
character first. A space, a tab or a carriage return, anywhere in the line, is a blank and ends a word; any other
character that is no mark refuses the line. DESIGN CHOICE, notes/assumptions/14.md: R83 does not say what is blank. -/
def lexLine : List Char → List Char → Option (List Token)
  | w, [] => some (endWord w [])
  | w, c :: cs =>
    if c == ';' then some (endWord w [])
    else if isWordChar c then lexLine (c :: w) cs
    else if c == ' ' || c == '\t' || c == '\r' then (lexLine [] cs).map (endWord w)
    else
      match markToken c with
      | some t => (lexLine [] cs).map fun ts => endWord w (t :: ts)
      | none => none

/-- A hexadecimal digit's value. -/
def hexDigit (c : Char) : Option Nat :=
  if '0' ≤ c && c ≤ '9' then some (c.toNat - 48)
  else if 'A' ≤ c && c ≤ 'F' then some (c.toNat - 55)
  else if 'a' ≤ c && c ≤ 'f' then some (c.toNat - 87)
  else none

/-- The number a row of digits of a base stands for, after `acc`. -/
def readDigits (base : Nat) : Nat → List Char → Option Nat
  | acc, [] => some acc
  | acc, c :: cs =>
    match hexDigit c with
    | some d => if d < base then readDigits base (acc * base + d) cs else none
    | none => none

/-- R83: a number is hexadecimal `0x..` or decimal. -/
def readNumber : List Char → Option Nat
  | [] => none
  | '0' :: 'x' :: [] => none
  | '0' :: 'x' :: ds => readDigits 16 0 ds
  | ds => readDigits 10 0 ds

/-- The mnemonics of R71. -/
def commandNames : List (List Char × Command) :=
  [("CSUM".toList, .csum), ("ENC_DS2".toList, .encDs2), ("ENC_KWP".toList, .encKwp), ("DEC_DS2".toList, .decDs2),
   ("DEC_KWP".toList, .decKwp), ("XACT_DS2".toList, .xactDs2), ("XACT_KWP".toList, .xactKwp)]

/-- The register names of R21. -/
def registerNames : List (List Char × RegName) :=
  [("CMD".toList, .cmd), ("STATE".toList, .state), ("RESULT".toList, .result), ("DETAIL".toList, .detail),
   ("STATUS_CLASS".toList, .statusClass), ("STATUS_RAW".toList, .statusRaw), ("CSUM_OUT".toList, .csumOut),
   ("REQ_TARGET".toList, .reqTarget), ("REQ_SOURCE".toList, .reqSource), ("REQ_LEN".toList, .reqLen),
   ("TX_LEN".toList, .txLen), ("RX_COUNT".toList, .rxCount), ("ECHO_COUNT".toList, .echoCount),
   ("PAY_OFF".toList, .payOff), ("PAY_LEN".toList, .payLen)]

/-- R83: a value is a number that fits the 16 data bits of a HACC32 word, or a mnemonic, which stands for its CODE. -/
def readValue (w : List Char) : Option Half :=
  match commandNames.lookup w with
  | some c => some (c.code.setWidth 16)
  | none =>
    match readNumber w with
    | some n => if n < 65536 then some (BitVec.ofNat 16 n) else none
    | none => none

/-- REQ_PAYLOAD+i, TX_FRAME+i or RX_FRAME+i. -/
def readIndexed (buf idx : List Char) : Option Loc :=
  match readNumber idx with
  | none => none
  | some i =>
    if buf = "REQ_PAYLOAD".toList then (if h : i < 255 then some (.reqPayload ⟨i, h⟩) else none)
    else if buf = "TX_FRAME".toList then (if h : i < 260 then some (.txFrame ⟨i, h⟩) else none)
    else if buf = "RX_FRAME".toList then (if h : i < 260 then some (.rxFrame ⟨i, h⟩) else none)
    else none

/-- The values of a list after its first, up to its closing bracket. -/
def readListTail : List Token → Option (List Half)
  | [.rightBracket] => some []
  | .comma :: .word w :: ts =>
    match readValue w, readListTail ts with
    | some v, some vs => some (v :: vs)
    | _, _ => none
  | _ => none

/-- A list of values after its opening bracket; it may be empty. -/
def readList : List Token → Option (List Half)
  | [.rightBracket] => some []
  | .word w :: ts =>
    match readValue w, readListTail ts with
    | some v, some vs => some (v :: vs)
    | _, _ => none
  | _ => none

/-- `ldreq` with its operands read: at most 255 payload bytes have a place in REQ_PAYLOAD. -/
def mkLdreq (target : Option Half) (source : Option (Option Half)) (payload : Option (List Half)) : Option AsmStmt :=
  match target, source, payload with
  | some t, some s, some p => if p.length ≤ 255 then some (.ldreq t s p) else none
  | _, _, _ => none

/-- The statement of a line (R83, R84), from its tokens. -/
def readStmt : List Token → Option AsmStmt
  | [.word k] => if k = "poll".toList then some .poll else none
  | [.word k, .word r] =>
    if k = "rd".toList then (registerNames.lookup r).map fun r => .rd (.reg r)
    else if k = "cmd".toList then (commandNames.lookup r).map .cmd
    else none
  | [.word k, .word b, .plus, .word i] =>
    if k = "rd".toList ∧ b ≠ "REQ_PAYLOAD".toList then (readIndexed b i).map .rd else none
  | [.word k, .word r, .comma, .word v] =>
    if k = "wr".toList then
      match registerNames.lookup r, readValue v with
      | some r, some v => some (.wr (.reg r) v)
      | _, _ => none
    else none
  | [.word k, .word b, .plus, .word i, .comma, .word v] =>
    if k = "wr".toList ∧ b = "REQ_PAYLOAD".toList then
      match readIndexed b i, readValue v with
      | some l, some v => some (.wr l v)
      | _, _ => none
    else none
  | .word k :: .word t :: .comma :: .leftBracket :: ts =>
    if k = "ldreq".toList then mkLdreq (readValue t) (some none) (readList ts) else none
  | .word k :: .word t :: .comma :: .word s :: .comma :: .leftBracket :: ts =>
    if k = "ldreq".toList then mkLdreq (readValue t) ((readValue s).map some) (readList ts) else none
  | _ => none

/-- The lines of a text; `cur` is the line that is being read, last character first. A line feed alone ends a line, and
the text's end ends its last one. DESIGN CHOICE, notes/assumptions/14.md: R83 does not say what ends a line. -/
def splitLines : List Char → List Char → List (List Char)
  | cur, [] => [cur.reverse]
  | cur, c :: cs => if c == '\n' then cur.reverse :: splitLines [] cs else splitLines (c :: cur) cs

/-- The statements of some lines: one a line, and none on a line that is empty but for its comment (R83). -/
def readLines : List (List Char) → Option (List AsmStmt)
  | [] => some []
  | l :: ls =>
    match lexLine [] l, readLines ls with
    | some [], some p => some p
    | some ts, some p => (readStmt ts).map (· :: p)
    | _, _ => none

/-- The host program a text stands for (R83, R84); `none` where a line is no statement. -/
def assembleText (text : String) : Option (List HostStmt) :=
  (readLines (splitLines [] text.toList)).map assemble

end Sys2Proof.Machine
end

