-- ==== Sys2Proof/Tests/Slice0.lean ====
section
/-! SUPPORT. The model's own tests: ill-formed terms, words written out from spec/30_encoding.md and spec/95_test_vectors.md,
one step of each instruction with the result a vector of spec/95_test_vectors.md gives, and for each statement with
hypotheses a state that meets them. -/

namespace Sys2Proof.Tests
open Sys2Proof.Machine

/-- The next state of a step, if it has one. -/
def out (o : Host.Outcome State Fault Refusal) : Option State :=
  match o with
  | .next s => some s
  | .fault _ => none
  | .refused _ => none

/-- Reset, and then the Host's writes of a request: target, source and payload. -/
def req (t src : Byte) (p : List Byte) : State :=
  { State.reset with
    reqTarget := t, reqSource := src, reqLen := BitVec.ofNat 8 p.length, mem := Memory.writeBytes [] 0x100 p,
    written := [0x008, 0x009, 0x00A] ++ (List.range p.length).map (0x100 + ·) }

/-- A running command: what the Line answers next, and the Engine's places next. -/
def running (s : State) (p : Phase) (cmd : Byte) (rx : List RxAnswer) (n : Nat) : State :=
  { s with phase := p, cmd := cmd, rx := rx, schedule := List.replicate n .engine }

/-! ## Well-formedness: each check with a term it refuses -/

theorem test_wf_refuses_csum_as_illegal : (Instr.illegal 0x01).wf = false := by decide

theorem test_wf_refuses_xact_kwp_as_illegal : (Instr.illegal 0x07).wf = false := by decide

theorem test_wf_takes_reserved :
    (Instr.illegal 0x00).wf = true ∧ (Instr.illegal 0x08).wf = true ∧ (Instr.illegal 0xFF).wf = true := by decide

theorem test_malformed_words :
    (match decode (.hacc32 0x10000000) with | .error e => some e | .ok _ => none) = some .zeroField ∧
    (match decode (.hacc32 0x90000000) with | .error e => some e | .ok _ => none) = some .zeroField ∧
    (match decode (.hacc32 0x00010001) with | .error e => some e | .ok _ => none) = some .readData := by decide

/-! ## Decoding: words written out from R71, R73, R83 and the programs of spec/95_test_vectors.md -/

theorem test_decode_csum : decode (.cmd8 0b00000001#8) = .ok .csum := rfl

theorem test_decode_enc_ds2 : decode (.cmd8 0b00000010#8) = .ok .encDs2 := rfl

theorem test_decode_enc_kwp : decode (.cmd8 0b00000011#8) = .ok .encKwp := rfl

theorem test_decode_dec_ds2 : decode (.cmd8 0b00000100#8) = .ok .decDs2 := rfl

theorem test_decode_dec_kwp : decode (.cmd8 0b00000101#8) = .ok .decKwp := rfl

theorem test_decode_xact_ds2 : decode (.cmd8 0b00000110#8) = .ok .xactDs2 := rfl

theorem test_decode_xact_kwp : decode (.cmd8 0b00000111#8) = .ok .xactKwp := rfl

theorem test_decode_reserved :
    decode (.cmd8 0b00000000#8) = .ok (.illegal 0x00) ∧ decode (.cmd8 0b11111111#8) = .ok (.illegal 0xFF) :=
  ⟨rfl, rfl⟩

/-- `wr REQ_TARGET, 0x32` (R83) and `wr REQ_PAYLOAD+1, 0x01` (P2). -/
theorem test_decode_hwr :
    decode (.hacc32 0b10000000000010000000000000110010#32) = .ok (.hwr 0x008 0x0032) ∧
    decode (.hacc32 0x81010001) = .ok (.hwr 0x101 0x0001) := ⟨rfl, rfl⟩

/-- `rd STATE` (R83) and `rd RX_FRAME+4` (P2). -/
theorem test_decode_hrd :
    decode (.hacc32 0b00000000000000010000000000000000#32) = .ok (.hrd 0x001) ∧
    decode (.hacc32 0x04040000) = .ok (.hrd 0x404) := ⟨rfl, rfl⟩

theorem test_decodeTableWord :
    decodeTableWord 8 0x06 = some .xactDs2 ∧ decodeTableWord 8 0x00 = some (.illegal 0x00) ∧
    decodeTableWord 32 0x800A0001 = some (.hwr 0x00A 0x0001) ∧ decodeTableWord 32 0x10000000 = none := by decide

/-- The word that is placed is the one the very next step runs. -/
theorem test_withFetchWord :
    (out (step (State.reset.withFetchWord 8 0x04))).map (·.phase) = some .decoding ∧
    (out (step (State.reset.withFetchWord 32 0x800A0001))).map (·.reqLen) = some 0x01 := by decide

/-- P1's request, as its words. -/
theorem test_assemble_ldreq :
    assemble [.ldreq 0x32 none [0x00], .cmd .xactDs2, .rd (.reg .result)] =
      [.word (.hacc32 0x80080032), .word (.hacc32 0x800A0001), .word (.hacc32 0x81000000),
        .word (.hacc32 0x80000006), .word (.hacc32 0x00020000)] := by decide

/-- The first lines of P3's second request and of its end, with a comment and an empty line. -/
theorem test_assembleText :
    assembleText "wr REQ_PAYLOAD+1, 0x03 ; REQ_LEN stays 2\n\n  cmd XACT_DS2\nrd RX_FRAME+3\nwr REQ_LEN, 2\npoll" =
      some [.word (.hacc32 0x81010003), .word (.hacc32 0x80000006), .word (.hacc32 0x04030000),
        .word (.hacc32 0x800A0002), .poll] := by decide

/-- `ldreq` (R84) with and without a source, and lines that are no statements. -/
theorem test_assembleText_ldreq :
    assembleText "ldreq 0x12, 0xF1, [0x21, 1]" =
      some [.word (.hacc32 0x80080012), .word (.hacc32 0x800900F1), .word (.hacc32 0x800A0002),
        .word (.hacc32 0x81000021), .word (.hacc32 0x81010001)] ∧
    assembleText "ldreq 18, []" = some [.word (.hacc32 0x80080012), .word (.hacc32 0x800A0000)] ∧
    assembleText "wr REQ_LEN 2" = none ∧ assembleText "wr REQ_LEN, 0x10000" = none := by decide

/-! ## One step of each instruction -/

/-- V1.6. -/
theorem test_csum : (out (exec .csum (req 0 0 [0x32, 0x04, 0xA0]))).map
    (fun s => (s.csumOut, s.phase, s.result)) = some (0x96, .complete, .ok) := by decide

/-- V1.10. -/
theorem test_csum_uninit : (out (exec .csum State.reset)).map
    (fun s => (s.cmd, s.phase, s.faultMark)) = some (0x01, .idle, some .uninit) := by decide

/-- V2.1. -/
theorem test_encDs2 : (out (exec .encDs2 (req 0x32 0 [0x00]))).map
    (fun s => (s.txFrame, s.txLen, s.csumOut)) = some ([0x32, 0x04, 0x00, 0x36], 4, 0x36) := by decide

/-- V2.4b: REQ_LEN = 253. -/
theorem test_encDs2_too_long :
    (out (exec .encDs2 { req 0x12 0 [] with reqLen := 253, txLen := 4 })).map
      (fun s => (s.phase, s.result, s.txLen)) = some (.failed, .payloadTooLong, 0) := by decide

/-- V3.1. -/
theorem test_encKwp : (out (exec .encKwp (req 0x12 0xF1 [0x21, 0x01]))).map
    (fun s => (s.txFrame, s.txLen, s.csumOut)) =
      some ([0xB8, 0x12, 0xF1, 0x02, 0x21, 0x01, 0x79], 7, 0x79) := by decide

/-- V3.5: REQ_SOURCE unwritten. -/
theorem test_encKwp_uninit :
    (out (exec .encKwp { req 0x12 0xF1 [] with written := [0x008, 0x00A] })).map
      (fun s => (s.cmd, s.phase, s.faultMark, s.txLen)) = some (0x03, .idle, some .uninit, 0) := by decide

/-- V6.8. -/
theorem test_decDs2_accept : (out (exec .decDs2 State.reset)).map
    (fun s => (s.phase, s.faultMark)) = some (.decoding, none) := by decide

/-- V2.9 at its second read: 32 02. -/
theorem test_decDs2_bad_length :
    (out (step { running State.reset .decoding 0x04 [.byte 0x02, .byte 0x30] 1 with
      rxCount := 1, decAcc := 0x32, mem := [(0x400, 0x32)] })).map
      (fun s => (s.result, s.detail, s.rxFrame, s.rx)) =
        some (.badLength, some .badLength, [0x32, 0x02], [.byte 0x30]) := by decide

/-- V3.9 at its first read. -/
theorem test_decKwp_header :
    (out (step (running State.reset .decoding 0x05 [.byte 0xB9] 1))).map
      (fun s => (s.result, s.rxFrame)) = some (.unexpectedHeader, [0xB9]) := by decide

/-- V3.11 at its last read: B8 F1 12 00 5B. -/
theorem test_decKwp_ok :
    (out (step { running State.reset .decoding 0x05 [.byte 0x5B] 1 with
      rxCount := 4, decNeed := 5, decAcc := 0x5B
      mem := [(0x400, 0xB8), (0x401, 0xF1), (0x402, 0x12)] })).map
      (fun s => (s.result, s.rxCount, s.payOff, s.payLen)) = some (.ok, 5, 4, 0) := by decide

/-- V4.1 at the accept. -/
theorem test_xactDs2_accept : (out (exec .xactDs2 (req 0x32 0 [0x00]))).map
    (fun s => (s.phase, s.txLog, s.txLen)) =
      some (.awaitingEcho, [[0x32, 0x04, 0x00, 0x36]], 4) := by decide

/-- V4.9d at its last read: 32 04 37 01. -/
theorem test_xactDs2_status :
    (out (step { running (req 0x32 0 [0x00]) .awaitingReply 0x06 [.byte 0x01] 1 with
      rxCount := 3, decNeed := 4, decAcc := 0x01, txLen := 4, echoCount := 4
      mem := [(0x200, 0x32), (0x400, 0x32), (0x401, 0x04), (0x402, 0x37)] })).map
      (fun s => (s.result, s.statusClass, s.statusRaw, s.payLen)) =
        some (.deviceStatusError, .unknownStatus, 0x37, 0) := by decide

/-- V5.1 at the accept. -/
theorem test_xactKwp_accept : (out (exec .xactKwp (req 0x12 0xF1 [0x21, 0x01]))).map
    (fun s => (s.phase, s.txLog, s.csumOut)) =
      some (.awaitingEcho, [[0xB8, 0x12, 0xF1, 0x02, 0x21, 0x01, 0x79]], 0x79) := by decide

/-- V5.3. -/
theorem test_xactKwp_bad_echo :
    (out (step (running (req 0x12 0xF1 [0x21, 0x01]) .awaitingEcho 0x07 [.byte 0x00] 1))).map
      (fun s => (s.result, s.detail, s.echoCount)) = some (.busError, some .unexpectedHeader, 1) := by decide

/-- V6.1. -/
theorem test_illegal_zero : (out (exec (.hwr 0x000 0x0000) State.reset)).map
    (fun s => (s.cmd, s.phase, s.result)) = some (0x00, .failed, .illegalCommand) := by decide

/-- V6.2. -/
theorem test_illegal_ff : (out (exec (.illegal 0xFF) State.reset)).map
    (fun s => (s.cmd, s.phase, s.result)) = some (0xFF, .failed, .illegalCommand) := by decide

/-- V6.3. -/
theorem test_hwr_bad_write :
    out (exec (.hwr 0x000 0x0101) State.reset) = some { State.reset with faultMark := some .badWrite } := by decide

/-- V6.6. -/
theorem test_hwr_busy :
    out (exec (.hwr 0x00A 0x0001) (running State.reset .awaitingEcho 0x06 [] 0)) =
      some { running State.reset .awaitingEcho 0x06 [] 0 with faultMark := some .hostBusy } := by decide

/-- P1: `rd STATUS_RAW` after the transaction. -/
theorem test_hrd : (out (exec (.hrd 0x005) { State.reset with statusRaw := 0xA0 })).map (·.hostData) =
    some (some 0x00A0) := by decide

/-- V6.7. -/
theorem test_hrd_stale : (out (exec (.hrd 0x404) { State.reset with rxCount := 4 })).map
    (fun s => (s.hostData, s.faultMark)) = some (none, some .stale) := by decide

/-! ## For each statement with hypotheses, states that meet them

A statement with several clauses gets each clause's hypotheses, at a boundary of their range. -/

/-- The next place is `t`. -/
def turn (t : Turn) : State := { State.reset with schedule := [t] }

/-- A DS2 or KWP2000 decode in phase `p` with `n` bytes stored, and the Line's next answer. -/
def mid (p : Phase) (cmd : Byte) (n need : Half) (acc : Byte) (a : RxAnswer) : State :=
  { running State.reset p cmd [a] 1 with rxCount := n, decNeed := need, decAcc := acc }

/-- XACT_DS2 just accepted, with an empty payload for 0x32. -/
def echoDs2 (rx : List RxAnswer) (n : Nat) : State :=
  { running (req 0x32 0xF1 []) .awaitingEcho 0x06 rx n with
    txLen := 3, txLog := [[0x32, 0x03, 0x31]], mem := [(0x200, 0x32), (0x201, 0x03), (0x202, 0x31)] }

/-- XACT_KWP just accepted, with an empty payload (V3.2). -/
def echoKwp (rx : List RxAnswer) (n : Nat) : State :=
  { running (req 0x12 0xF1 []) .awaitingEcho 0x07 rx n with
    txLen := 5, txLog := [[0xB8, 0x12, 0xF1, 0x00, 0x5B]]
    mem := [(0x200, 0xB8), (0x201, 0x12), (0x202, 0xF1), (0x204, 0x5B)] }

theorem inv_decoding_ds2 (rx : List RxAnswer) (n : Nat) : (running State.reset .decoding 0x04 rx n).Inv :=
  State.Inv.env (s := running State.reset .decoding 0x04 [] 0)
    ⟨by decide, by decide, by decide, by decide, by decide, by decide, by decide, .inl ⟨rfl, rfl⟩, ⟨rfl, rfl⟩,
      (fun h => by cases h), .inl rfl, (by unfold State.statusFits; decide), by decide,
      (fun _ _ => by unfold State.ds2Progress; decide), (fun _ _ => by unfold State.kwpProgress; decide),
      (by unfold State.requestSent; decide)⟩ none rx 0 [] none (List.replicate n .engine) 0

theorem inv_decoding_kwp (rx : List RxAnswer) (n : Nat) : (running State.reset .decoding 0x05 rx n).Inv :=
  State.Inv.env (s := running State.reset .decoding 0x05 [] 0)
    ⟨by decide, by decide, by decide, by decide, by decide, by decide, by decide, .inl ⟨rfl, rfl⟩, ⟨rfl, rfl⟩,
      (fun h => by cases h), .inr rfl, (by unfold State.statusFits; decide), by decide,
      (fun _ _ => by unfold State.ds2Progress; decide), (fun _ _ => by unfold State.kwpProgress; decide),
      (by unfold State.requestSent; decide)⟩ none rx 0 [] none (List.replicate n .engine) 0

theorem inv_echoDs2 (rx : List RxAnswer) (n : Nat) : (echoDs2 rx n).Inv :=
  State.Inv.env (s := echoDs2 [] 0)
    ⟨by decide, by decide, by decide, by decide, by decide, by decide, by decide, .inl ⟨rfl, rfl⟩, ⟨rfl, rfl⟩,
      (fun h => by cases h), .inl rfl, (by unfold State.statusFits; decide), by decide,
      (fun _ _ => by unfold State.ds2Progress; decide), (fun _ _ => by unfold State.kwpProgress; decide),
      (by unfold State.requestSent; decide)⟩ none rx 0 [] none (List.replicate n .engine) 0

theorem inv_echoKwp (rx : List RxAnswer) (n : Nat) : (echoKwp rx n).Inv :=
  State.Inv.env (s := echoKwp [] 0)
    ⟨by decide, by decide, by decide, by decide, by decide, by decide, by decide, .inl ⟨rfl, rfl⟩, ⟨rfl, rfl⟩,
      (fun h => by cases h), .inr rfl, (by unfold State.statusFits; decide), by decide,
      (fun _ _ => by unfold State.ds2Progress; decide), (fun _ _ => by unfold State.kwpProgress; decide),
      (by unfold State.requestSent; decide)⟩ none rx 0 [] none (List.replicate n .engine) 0

/-- An idle KCODEC with a written request (its payload [0x00] at most), the Line's answers and the order. -/
theorem inv_req (rx : List RxAnswer) (sched : List Turn) :
    State.Inv { req 0x32 0xF1 [] with rx := rx, schedule := sched } :=
  State.Inv.env (s := req 0x32 0xF1 [])
    ⟨by decide, by decide, by decide, by decide, by decide, by decide, by decide, .inl ⟨rfl, rfl⟩, ⟨rfl, rfl⟩,
      (fun h => by cases h), trivial, (by unfold State.statusFits; decide), by decide,
      (fun _ _ => by unfold State.ds2Progress; decide), (fun _ _ => by unfold State.kwpProgress; decide),
      (by unfold State.requestSent; decide)⟩ none rx 0 [] none sched 0

theorem witness_ResetEventInAnyState : (turn .reset).nextTurn = .reset := rfl

theorem witness_StepRunsDecodedInstruction :
    (let s : State := { turn .host with program := [.word (.cmd8 0x04), .poll] }
     s.nextTurn = .host ∧ s.program = .word (.cmd8 0x04) :: [.poll] ∧ programOk s.program = true ∧
      decode (.cmd8 0x04) = .ok .decDs2) := ⟨rfl, rfl, rfl, rfl⟩

theorem witness_StepGivesOtherTurns :
    (let s : State := running State.reset .decoding 0x04 [.timeout] 1
     s.nextTurn = .engine ∧ s.busy = true) ∧
    ((turn .engine).nextTurn = .engine ∧ (turn .engine).busy = false) ∧
    ((turn .host).nextTurn = .host ∧ (turn .host).program = []) := by decide

theorem witness_PollRepeatsUntilDone :
    (let s : State := { turn .host with program := [.poll], phase := .failed }
     s.nextTurn = .host ∧ s.program = .poll :: [] ∧ programOk [] = true ∧ s.done = true) ∧
    (let s : State := { turn .host with program := [.poll], phase := .awaitingReply }
     s.nextTurn = .host ∧ s.program = .poll :: [] ∧ programOk [] = true ∧ s.done = false) := by decide

theorem witness_HostAccessWordFields :
    ((0x8FFFFFFF#32 >>> 28) &&& 7#32 = 0 ∧ 0x8FFFFFFF#32 >>> 31 = 1) ∧
    ((0x0FFF0000#32 >>> 28) &&& 7#32 = 0 ∧ 0x0FFF0000#32 >>> 31 = 0 ∧ (0x0FFF0000#32).toNat % 2 ^ 16 = 0) ∧
    ((0x10000000#32 >>> 28) &&& 7#32 ≠ 0 ∧ (0x00000001#32 >>> 31 = 0 ∧ (0x00000001#32).toNat % 2 ^ 16 ≠ 0) ∧
      ∀ w : BitVec 32, ({ turn .host with program := [.word (.hacc32 w)] } : State).nextTurn = .host ∧
        HostStmt.word (.hacc32 w) ∈ ({ turn .host with program := [.word (.hacc32 w)] } : State).program) :=
  ⟨by decide, by decide, by decide, by decide, fun _ => ⟨rfl, List.mem_singleton.2 rfl⟩⟩

theorem witness_DecodeEncodeAgree :
    (Instr.illegal 0xFF).wf = true ∧ decode (.hacc32 0x8FFFFFFF) = .ok (.hwr 0xFFF 0xFFFF) := ⟨rfl, rfl⟩

theorem witness_StatementsExpandToTheirAccesses : (List.replicate 255 (0x0000 : Half)).length ≤ 255 := by
  rw [List.length_replicate]

theorem witness_ChecksumLaws :
    [(0x32 : Byte), 0x04, 0x00].Perm [0x00, 0x32, 0x04] ∧ 7 < 8 ∧ 0 < 8 := by decide

theorem witness_EncodeDs2FrameShape : (List.replicate 252 (0xA5 : Byte)).length ≤ 252 := by
  rw [List.length_replicate]

theorem witness_EncodeKwpFrameShape : (List.replicate 255 (0x00 : Byte)).length ≤ 255 := by
  rw [List.length_replicate]

theorem witness_CsumResultAndFrame :
    (let s := req 0 0 []
     s.busy = false ∧ s.written.has 0x00A = true ∧ ∀ i, i < s.reqLen.toNat → s.written.has (0x100 + i) = true) ∧
    (let s : State := { State.reset with written := [0x00A], reqLen := 1 }
     s.busy = false ∧
      ¬ (s.written.has 0x00A = true ∧ ∀ i, i < s.reqLen.toNat → s.written.has (0x100 + i) = true)) := by decide

theorem witness_EncDs2ResultAndFrame :
    (let s := req 0x32 0 [0x00]
     s.busy = false ∧ s.mem.wf = true ∧ s.written.has 0x00A = true ∧ s.reqLen.toNat ≤ 252 ∧
      s.written.has 0x008 = true ∧ ∀ i, i < s.reqLen.toNat → s.written.has (0x100 + i) = true) ∧
    (let s : State := { State.reset with written := [0x00A], reqLen := 253 }
     s.busy = false ∧ s.mem.wf = true ∧ s.written.has 0x00A = true ∧ 252 < s.reqLen.toNat) ∧
    (let s : State := State.reset
     s.busy = false ∧ s.mem.wf = true ∧
      ¬ (s.written.has 0x00A = true ∧ (s.reqLen.toNat ≤ 252 → s.written.has 0x008 = true ∧
        ∀ i, i < s.reqLen.toNat → s.written.has (0x100 + i) = true))) := by decide

theorem witness_EncKwpResultAndFrame :
    (let s := req 0x12 0xF1 [0x21, 0x01]
     s.busy = false ∧ s.mem.wf = true ∧ s.written.has 0x00A = true ∧ s.written.has 0x008 = true ∧
      s.written.has 0x009 = true ∧ ∀ i, i < s.reqLen.toNat → s.written.has (0x100 + i) = true) ∧
    (let s : State := { State.reset with written := [0x008, 0x00A] }
     s.busy = false ∧ s.mem.wf = true ∧
      ¬ (s.written.has 0x00A = true ∧ s.written.has 0x008 = true ∧ s.written.has 0x009 = true ∧
        ∀ i, i < s.reqLen.toNat → s.written.has (0x100 + i) = true)) := by decide

theorem witness_DecodeCommandsAcceptAndFrame : State.reset.busy = false := rfl

theorem witness_XactDs2AcceptAndFrame :
    (let s := req 0x32 0 []
     s.busy = false ∧ s.mem.wf = true ∧ s.written.has 0x00A = true ∧ s.reqLen.toNat ≤ 252 ∧
      s.written.has 0x008 = true ∧ ∀ i, i < s.reqLen.toNat → s.written.has (0x100 + i) = true) ∧
    (let s : State := { State.reset with written := [0x00A], reqLen := 255 }
     s.busy = false ∧ s.mem.wf = true ∧ s.written.has 0x00A = true ∧ 252 < s.reqLen.toNat) ∧
    (let s : State := { State.reset with written := [0x00A] }
     s.busy = false ∧ s.mem.wf = true ∧
      ¬ (s.written.has 0x00A = true ∧ (s.reqLen.toNat ≤ 252 → s.written.has 0x008 = true ∧
        ∀ i, i < s.reqLen.toNat → s.written.has (0x100 + i) = true))) := by decide

theorem witness_XactKwpAcceptAndFrame :
    (let s := req 0x12 0xF1 []
     s.busy = false ∧ s.mem.wf = true ∧ s.written.has 0x00A = true ∧ s.written.has 0x008 = true ∧
      s.written.has 0x009 = true ∧ ∀ i, i < s.reqLen.toNat → s.written.has (0x100 + i) = true) ∧
    (let s : State := { State.reset with written := [0x008, 0x009] }
     s.busy = false ∧ s.mem.wf = true ∧
      ¬ (s.written.has 0x00A = true ∧ s.written.has 0x008 = true ∧ s.written.has 0x009 = true ∧
        ∀ i, i < s.reqLen.toNat → s.written.has (0x100 + i) = true)) := by decide

theorem witness_ReservedCodeFailsAtOnce :
    State.reset.busy = false ∧ (0x00#8).toNat = 0x00 ∧ (0x08 ≤ (0x08#8).toNat ∧ (0x08#8).toNat ≤ 0xFF) ∧
      (0x08 ≤ (0xFF#8).toNat ∧ (0xFF#8).toNat ≤ 0xFF) := by decide

theorem witness_WriteWhileBusyChangesNothing :
    (running State.reset .awaitingEcho 0x06 [] 0).busy = true ∧ (0x00FF#16).toNat < 0x100 ∧
      (0x000#12).toNat = 0x000 ∧ (0x008 ≤ (0x00A#12).toNat ∧ (0x00A#12).toNat ≤ 0x00A) ∧
      (0x100 ≤ (0x1FE#12).toNat ∧ (0x1FE#12).toNat ≤ 0x1FE) := by decide

theorem witness_HostWriteSetsRequest :
    State.reset.busy = false ∧ (0x00FF#16).toNat < 0x100 ∧ State.reset.mem.wf = true ∧ 254 < 255 := by decide

theorem witness_HostAccessModelFaults :
    locOf 0x007 = none ∧ locOf 0xFFF = none ∧
    (0x001 ≤ (0x006#12).toNat ∧ (0x006#12).toNat ≤ 0x006) ∧
    (0x400 ≤ (0x503#12).toNat ∧ (0x503#12).toNat ≤ 0x503) ∧
    (0x100 ≤ (0x0100#16).toNat ∧ (0x000#12).toNat = 0x000) ∧
    (0x100 ≤ (0xFFFF#16).toNat ∧ 0x100 ≤ (0x1FE#12).toNat ∧ (0x1FE#12).toNat ≤ 0x1FE) := by decide

theorem witness_RequestWritesIdempotent :
    State.Inv { req 0x32 0xF1 [] with rx := [], schedule := [] } ∧ (0x1FE : HostAddr) ≠ 0x000 ∧
    exec (.hwr 0x1FE 0x00FF) { req 0x32 0xF1 [] with rx := [], schedule := [] } =
      .next (State.setReqPayload 254 0xFF { req 0x32 0xF1 [] with rx := [], schedule := [] }) :=
  ⟨inv_req [] [], by decide, rfl⟩

theorem witness_HostReadReturnsValue :
    ((req 0 0 [0x00]).written.has 0x008 = true ∧ (req 0 0 [0x00]).written.has 0x009 = true ∧
      (req 0 0 [0x00]).written.has 0x00A = true ∧ 0 < 255 ∧ (req 0 0 [0x00]).written.has (0x100 + 0) = true) ∧
    (254 < 255 ∧ ({ State.reset with written := [0x1FE] } : State).written.has (0x100 + 254) = true) ∧
    (259 < 260 ∧ 259 < ({ State.reset with txLen := 260 } : State).txLen.toNat) ∧
    (259 < 260 ∧ 259 < ({ State.reset with rxCount := 260 } : State).rxCount.toNat) := by decide

theorem witness_UnreadableReadsReturnNoValue :
    State.reset.written.has 0x008 = false ∧ State.reset.written.has 0x1FE = false ∧
    (0 < 260 ∧ State.reset.txLen.toNat ≤ 0) ∧ (259 < 260 ∧ State.reset.rxCount.toNat ≤ 259) := by decide

/-- The bytes a write of the last payload byte and one of a register must leave: the neighbour's, and all. -/
theorem witness_ReadsHaveNoSideEffect :
    ((0x1FE : HostAddr) ≠ 0x000 ∧ ∀ i, locOf 0x1FE = some (.reqPayload i) → 0x1FD ≠ 0x100 + i.val) ∧
    ((0x008 : HostAddr) ≠ 0x000 ∧ ∀ i, locOf 0x008 = some (.reqPayload i) → 0x200 ≠ 0x100 + i.val) := by
  refine ⟨⟨by decide, fun i h => ?_⟩, by decide, fun i h => ?_⟩
  · have h' : (some (.reqPayload 254) : Option Loc) = some (.reqPayload i) := h
    cases h'
    decide
  · have h' : (some (.reg .reqTarget) : Option Loc) = some (.reqPayload i) := h
    cases h'

theorem witness_ReservedValuesNeverRead :
    (let s : State := { State.reset with phase := .failed }
     s.phase = .failed ∧ s.hostRead 0x001 = .ok 0x05) ∧
    (let s : State := { State.reset with result := .busError }
     s.result = .busError ∧ s.hostRead 0x002 = .ok 0x20) ∧
    (let s : State := { State.reset with detail := some .unexpectedHeader }
     s.detail = some .unexpectedHeader ∧ s.hostRead 0x003 = .ok 0x14) ∧
    (let s : State := { State.reset with statusClass := .unknownStatus }
     s.statusClass = .unknownStatus ∧ s.hostRead 0x004 = .ok 0x05) :=
  ⟨⟨rfl, rfl⟩, ⟨rfl, rfl⟩, ⟨rfl, rfl⟩, rfl, rfl⟩

theorem witness_DecDs2EngineStep :
    (let s := mid .decoding 0x04 0 0 0x00 .timeout
     s.nextTurn = .engine ∧ s.phase = .decoding ∧ s.cmd = 0x04 ∧ s.rxCount.toNat < 260 ∧ s.rxAnswer = .timeout ∧
      s.rxCount = 0) ∧
    (let s := mid .decoding 0x04 259 0 0x00 .timeout
     s.nextTurn = .engine ∧ s.phase = .decoding ∧ s.cmd = 0x04 ∧ s.rxCount.toNat < 260 ∧ s.rxAnswer = .timeout ∧
      s.rxCount ≠ 0) ∧
    (let s := mid .decoding 0x04 1 0 0x32 (.byte 0x02)
     s.rxCount.toNat < 260 ∧ s.rxAnswer = .byte 0x02 ∧ s.rxCount = 1 ∧ (0x02#8).toNat < 3) ∧
    (let s := mid .decoding 0x04 1 0 0x32 (.byte 0x03)
     s.rxAnswer = .byte 0x03 ∧ ¬ (s.rxCount = 1 ∧ (0x03#8).toNat < 3) ∧
      ¬ (zext16 0x03 ≠ 0 ∧ s.rxCount + 1 = zext16 0x03)) ∧
    (let s := mid .decoding 0x04 2 3 0x31 (.byte 0x30)
     s.rxAnswer = .byte 0x30 ∧ s.rxCount ≠ 1 ∧ s.decNeed ≠ 0 ∧ s.rxCount + 1 = s.decNeed ∧
      s.decAcc ^^^ 0x30 ≠ 0x00) ∧
    (let s := mid .decoding 0x04 2 3 0x31 (.byte 0x31)
     s.rxAnswer = .byte 0x31 ∧ s.rxCount ≠ 1 ∧ s.decNeed ≠ 0 ∧ s.rxCount + 1 = s.decNeed ∧
      s.decAcc ^^^ 0x31 = 0x00) := by decide

theorem witness_DecKwpEngineStep :
    (let s := mid .decoding 0x05 0 0 0x00 .timeout
     s.nextTurn = .engine ∧ s.phase = .decoding ∧ s.cmd = 0x05 ∧ s.rxCount.toNat < 260 ∧ s.rxAnswer = .timeout ∧
      s.rxCount = 0) ∧
    (let s := mid .decoding 0x05 259 260 0x00 .timeout
     s.nextTurn = .engine ∧ s.phase = .decoding ∧ s.cmd = 0x05 ∧ s.rxCount.toNat < 260 ∧ s.rxAnswer = .timeout ∧
      s.rxCount ≠ 0) ∧
    (let s := mid .decoding 0x05 0 0 0x00 (.byte 0xB9)
     s.rxAnswer = .byte 0xB9 ∧ s.rxCount = 0 ∧ (0xB9 : Byte) ≠ 0xB8) ∧
    (let s := mid .decoding 0x05 3 0 0x5B (.byte 0x00)
     s.rxAnswer = .byte 0x00 ∧ ¬ (s.rxCount = 0 ∧ (0x00 : Byte) ≠ 0xB8) ∧
      ¬ (zext16 0x00 + 5 ≠ 0 ∧ s.rxCount + 1 = zext16 0x00 + 5)) ∧
    (let s := mid .decoding 0x05 259 260 0x5B (.byte 0x5A)
     s.rxAnswer = .byte 0x5A ∧ s.rxCount ≠ 0 ∧ s.rxCount ≠ 3 ∧ s.decNeed ≠ 0 ∧ s.rxCount + 1 = s.decNeed ∧
      s.decAcc ^^^ 0x5A ≠ 0x00) ∧
    (let s := mid .decoding 0x05 4 5 0x5B (.byte 0x5B)
     s.rxAnswer = .byte 0x5B ∧ s.rxCount ≠ 0 ∧ s.rxCount ≠ 3 ∧ s.decNeed ≠ 0 ∧ s.rxCount + 1 = s.decNeed ∧
      s.decAcc ^^^ 0x5B = 0x00) := by decide

theorem witness_EchoPhaseStep :
    (let s := mid .awaitingEcho 0x06 0 0 0x00 (.byte 0x32)
     s.nextTurn = .engine ∧ s.phase = .awaitingEcho ∧ s.rxCount.toNat < 260 ∧ s.cmd = 0x06 ∧
      s.takeTurn.decStepDs2.1 = none) ∧
    (let s := mid .awaitingEcho 0x06 2 3 0x31 (.byte 0x31)
     s.cmd = 0x06 ∧ s.takeTurn.decStepDs2.1 = some .ok) ∧
    (let s := mid .awaitingEcho 0x07 0 0 0x00 (.byte 0x00)
     s.nextTurn = .engine ∧ s.cmd = 0x07 ∧ s.takeTurn.decStepKwp.1 = some .unexpectedHeader ∧
      Verdict.unexpectedHeader ≠ .ok) := by decide

theorem witness_ReplyVerdictMapping :
    (let s := mid .awaitingReply 0x06 0 0 0x00 .timeout
     s.nextTurn = .engine ∧ s.phase = .awaitingReply ∧ s.rxCount.toNat < 260 ∧ s.cmd = 0x06 ∧
      s.takeTurn.decStepDs2.1 = some .noReply) ∧
    (mid .awaitingReply 0x06 1 0 0x32 .timeout).takeTurn.decStepDs2.1 = some .incompleteFrame ∧
    (mid .awaitingReply 0x06 1 0 0x32 (.byte 0x02)).takeTurn.decStepDs2.1 = some .badLength ∧
    (mid .awaitingReply 0x06 2 3 0x31 (.byte 0x00)).takeTurn.decStepDs2.1 = some .checksumError ∧
    (let s := mid .awaitingReply 0x07 0 0 0x00 (.byte 0x80)
     s.nextTurn = .engine ∧ s.cmd = 0x07 ∧ s.takeTurn.decStepKwp.1 = some .unexpectedHeader) := by decide

/-- A DS2 reply whose last byte comes next: bytes 0, 1 and 2, the request's address being 0x32. -/
def lastOf (a l st : Byte) (n : Half) (c : Byte) : State :=
  { mid .awaitingReply 0x06 n (zext16 l) c (.byte c) with
    mem := Memory.writeBytes [(0x200, 0x32)] 0x400 [a, l, st] }

theorem witness_Ds2ReplyClassification :
    (let s := lastOf 0x33 0x04 0xA0 3 0x97
     s.nextTurn = .engine ∧ s.phase = .awaitingReply ∧ s.cmd = 0x06 ∧ s.rxCount.toNat < 260 ∧
      s.takeTurn.decStepDs2.1 = some .ok ∧ s.takeTurn.decStepDs2.2.rxByte 0 ≠ s.takeTurn.decStepDs2.2.txByte 0) ∧
    (let t := (lastOf 0x32 0x03 0x31 2 0x31).takeTurn.decStepDs2
     t.1 = some .ok ∧ t.2.rxByte 0 = t.2.txByte 0 ∧ t.2.rxByte 1 = 3) ∧
    (let t := (lastOf 0x32 0x04 0xFF 3 0xC9).takeTurn.decStepDs2
     t.1 = some .ok ∧ t.2.rxByte 0 = t.2.txByte 0 ∧ t.2.rxByte 1 ≠ 3 ∧ t.2.rxByte 2 ≠ 0xA0) ∧
    (let t := (lastOf 0x32 0x04 0xA0 3 0x96).takeTurn.decStepDs2
     t.1 = some .ok ∧ t.2.rxByte 0 = t.2.txByte 0 ∧ t.2.rxByte 1 ≠ 3 ∧ t.2.rxByte 2 = 0xA0) := by decide

theorem witness_KwpReplySuccess :
    (let s := mid .awaitingReply 0x07 259 260 0x5B (.byte 0x5B)
     s.nextTurn = .engine ∧ s.phase = .awaitingReply ∧ s.cmd = 0x07 ∧ s.rxCount.toNat < 260 ∧
      s.takeTurn.decStepKwp.1 = some .ok) := by decide

theorem witness_DecoderStepFrame :
    (let s := mid .decoding 0x04 0 0 0x00 .timeout
     s.mem.wf = true ∧ s.rxCount.toNat < 260 ∧ s.rxAnswer = .timeout ∧ s.rxCount = 0) ∧
    (let s := mid .decoding 0x05 259 260 0x00 .timeout
     s.rxCount.toNat < 260 ∧ s.rxAnswer = .timeout ∧ s.rxCount ≠ 0) ∧
    (let s := mid .decoding 0x05 259 260 0x5B (.byte 0x5B)
     s.mem.wf = true ∧ s.rxCount.toNat < 260 ∧ s.rxAnswer = .byte 0x5B) := by decide

theorem witness_StepKeepsStateInvariant :
    (running State.reset .decoding 0x04 [.byte 0x32] 1).Inv ∧
    step (running State.reset .decoding 0x04 [.byte 0x32] 1) =
      .next ((running State.reset .decoding 0x04 [.byte 0x32] 1).takeTurn.rxConsume.storeRx 0x32) :=
  ⟨inv_decoding_ds2 _ _, rfl⟩

theorem witness_InvariantStatesNeverStop :
    (echoKwp [.timeout] 1).Inv ∧ programOk (echoKwp [.timeout] 1).program = true := ⟨inv_echoKwp _ _, rfl⟩

theorem witness_FaultMarkIsSticky :
    (let s : State := { turn .reset with faultMark := some .stale }
     s.faultMark = some .stale ∧ step s = .next s.takeTurn.applyReset) := ⟨rfl, rfl⟩

theorem witness_OneReadPerEngineStep :
    (let s := running State.reset .decoding 0x05 [.byte 0xB8] 1
     step s = .next (s.takeTurn.rxConsume.storeRx 0xB8) ∧ s.nextTurn = .engine ∧ s.busy = true) ∧
    (step (turn .engine) = .next (turn .engine).takeTurn ∧
      ¬ ((turn .engine).nextTurn = .engine ∧ (turn .engine).busy = true)) :=
  ⟨⟨rfl, by decide, by decide⟩, rfl, by decide⟩

theorem witness_TransmitsOnlyAtAccept :
    State.Inv { req 0x32 0xF1 [] with rx := [], schedule := [.engine] } ∧
    step { req 0x32 0xF1 [] with rx := [], schedule := [.engine] } =
      .next (State.takeTurn { req 0x32 0xF1 [] with rx := [], schedule := [.engine] }) :=
  ⟨inv_req [] [.engine], rfl⟩

theorem witness_ResultsStayUntilNextCommand :
    (let s : State := { turn .host with program := [.word (.hacc32 0x80000100)], phase := .complete }
     s.mem.wf = true ∧ s.done = true ∧ s.nextTurn ≠ .reset ∧
      step s = .next (State.markFault .badWrite { s.takeTurn with program := [] }) ∧ s.nextTurn = .host ∧
      s.takeTurn.hostAction = .run (.hwr 0x000 0x0100) ∧ 0x100 ≤ (0x0100#16).toNat) ∧
    (let s : State := { turn .engine with program := [.word (.cmd8 0x06)], phase := .failed }
     s.mem.wf = true ∧ s.done = true ∧ s.nextTurn ≠ .reset ∧ s.nextTurn ≠ .host ∧ step s = .next s.takeTurn ∧
      s.takeTurn.hostAction = .run .xactDs2) :=
  ⟨⟨by decide, by decide, by decide, rfl, rfl, by decide, by decide⟩, by decide, by decide, by decide, by decide, rfl,
    by decide⟩

theorem witness_UnreadableBytesNeverMatter :
    (let s := running State.reset .decoding 0x04 [.byte 0x32] 1
     s.Inv ∧ s.agreesReadable s ∧ step s = .next (s.takeTurn.rxConsume.storeRx 0x32)) :=
  ⟨inv_decoding_ds2 _ _, ⟨rfl, fun _ => rfl, fun _ => rfl, fun _ => rfl, fun _ _ _ => rfl, fun _ _ => rfl,
    fun _ _ => rfl⟩, rfl⟩

/-- Two states that differ in a stale byte alone. -/
theorem witness_agreesReadable_differs :
    State.agreesReadable State.reset { State.reset with mem := [(0x200, 0x55)] } ∧
    State.reset ≠ { State.reset with mem := [(0x200, 0x55)] } := by
  refine ⟨⟨rfl, fun h => (by cases h), fun h => (by cases h), fun h => (by cases h), fun _ _ h => (by cases h),
    fun _ h => (Nat.not_lt_zero _ h).elim, fun _ h => (Nat.not_lt_zero _ h).elim⟩, by decide⟩

theorem witness_AcceptIgnoresEarlierCommands :
    (let s := req 0x32 0xF1 []
     let t : State := { s with phase := .failed, result := .busError, rxCount := 2, mem := [(0x400, 0x32)] }
     s.mem.wf = true ∧ t.mem.wf = true ∧ s.busy = false ∧ t.busy = false ∧ s.sameRequest t ∧
      s.operandsPresent (decodeCmd8 0x07) = true) := by
  refine ⟨by decide, by decide, by decide, by decide, ⟨rfl, rfl, rfl, rfl, fun i hi => ?_, rfl, rfl⟩, by decide⟩
  show Memory.read [(0x400, 0x32)] (reqBase + i) = Memory.blank
  rw [Memory.read, if_neg (by simp only [reqBase]; omega), Memory.read]

/-- The smallest DS2 frame (V2.9b) before its last byte; `txLen` and on are left from an earlier command. -/
def lastByte (txLen : Half) (csum : Byte) (echo : Half) (log : List (List Byte)) (tx : Memory) : State :=
  { running State.reset .decoding 0x04 [.byte 0x11] 1 with
    rxCount := 2, decNeed := 3, decAcc := 0x11, txLen := txLen, csumOut := csum, echoCount := echo, txLog := log
    mem := tx ++ [(0x400, 0x12), (0x401, 0x03)] }

/-- After reset, and after an XACT_KWP that failed: the step that ends the command, from two different states. -/
theorem witness_EngineIgnoresEarlierCommands :
    (let s := lastByte 0 0x00 0 [] []
     let t := lastByte 1 0x55 7 [[0x55]] [(0x200, 0x55)]
     s.Inv ∧ t.Inv ∧ s.sameCommand t ∧ s.nextTurn = .engine ∧ t.nextTurn = .engine ∧ s ≠ t ∧
      step s = .next (State.decDs2Finish .ok (s.takeTurn.rxConsume.storeRx 0x11))) := by
  refine ⟨?_, ?_, ?_, rfl, rfl, by decide, rfl⟩
  · exact ⟨by decide, by decide, by decide, by decide, by decide, by decide, by decide, .inl ⟨rfl, rfl⟩, ⟨rfl, rfl⟩,
      (fun h => by cases h), .inl rfl, (by unfold State.statusFits; decide), by decide,
      (fun _ _ => by unfold State.ds2Progress; decide), (fun _ h => absurd h (by decide)),
      (by unfold State.requestSent; decide)⟩
  · exact ⟨by decide, by decide, by decide, by decide, by decide, by decide, by decide, .inl ⟨rfl, rfl⟩, ⟨rfl, rfl⟩,
      (fun h => by cases h), .inl rfl, (by unfold State.statusFits; decide), by decide,
      (fun _ _ => by unfold State.ds2Progress; decide), (fun _ h => absurd h (by decide)),
      (by unfold State.requestSent; decide)⟩
  · refine ⟨⟨rfl, rfl, rfl, rfl, fun i hi => ?_, rfl, rfl⟩, rfl, rfl, rfl, rfl, rfl, rfl, rfl, rfl,
      fun h => absurd h (by decide), fun h => absurd h (by decide), fun h => absurd h (by decide),
      fun _ => ⟨rfl, fun i hi => ?_⟩, fun _ => ⟨rfl, rfl⟩⟩
    · show Memory.read [(0x200, 0x55), (0x400, 0x12), (0x401, 0x03)] (reqBase + i) =
        Memory.read [(0x400, 0x12), (0x401, 0x03)] (reqBase + i)
      rw [Memory.read, if_neg (by simp only [reqBase]; omega)]
    · show Memory.read [(0x200, 0x55), (0x400, 0x12), (0x401, 0x03)] (rxBase + i) =
        Memory.read [(0x400, 0x12), (0x401, 0x03)] (rxBase + i)
      rw [Memory.read, if_neg (by simp only [rxBase]; omega)]

/-- The premises on the order, for a schedule that is listed. -/
theorem listed_places {s : State} {l : List Turn} (h : s.schedule = l) (hr : .reset ∉ l) :
    (∀ j, j < l.length → s.turnAt j ≠ .reset) ∧ s.engineTurns l.length = l.countP (· == .engine) := by
  have h' : s.schedule = l ++ [] := by rw [h, List.append_nil]
  exact ⟨fun j hj he => hr (he ▸ turnAt_prefix h' hj ▸ List.getElem_mem hj), engineTurns_prefix h'⟩

/-- With the Engine's places in a row, and with a round of `poll` before the first. -/
theorem witness_CommandsEndWithinBounds :
    (let s : State := { running State.reset .decoding 0x04 [] 0 with
       program := [.poll], schedule := .host :: List.replicate 255 .engine }
     s.Inv ∧ s.busy = true ∧ s.cmd = 0x04 ∧ (∀ j, j < 256 → s.turnAt j ≠ .reset) ∧ programOk s.program = true ∧
      255 ≤ s.engineTurns 256) ∧
    (let s := running State.reset .decoding 0x05 [] 260
     s.Inv ∧ s.busy = true ∧ s.cmd = 0x05 ∧ (∀ j, j < 260 → s.turnAt j ≠ .reset) ∧ programOk s.program = true ∧
      260 ≤ s.engineTurns 260) ∧
    (let s := echoDs2 [] 510
     s.Inv ∧ s.busy = true ∧ s.cmd = 0x06 ∧ (∀ j, j < 510 → s.turnAt j ≠ .reset) ∧ programOk s.program = true ∧
      510 ≤ s.engineTurns 510) ∧
    (let s := echoKwp [] 520
     s.Inv ∧ s.busy = true ∧ s.cmd = 0x07 ∧ (∀ j, j < 520 → s.turnAt j ≠ .reset) ∧ programOk s.program = true ∧
      520 ≤ s.engineTurns 520) := by
  have key : ∀ (s : State) (n : Nat), s.schedule = List.replicate n .engine →
      (∀ j, j < n → s.turnAt j ≠ .reset) ∧ n ≤ s.engineTurns n := fun s n h => by
    have := listed_places h (by simp)
    simp only [List.length_replicate, List.countP_replicate] at this
    exact ⟨this.1, by rw [this.2]; simp⟩
  refine ⟨⟨(inv_decoding_ds2 [] 0).env _ _ _ _ _ _ _, rfl, rfl, ?_⟩,
    ⟨inv_decoding_kwp _ _, rfl, rfl, (key _ _ rfl).1, rfl, (key _ _ rfl).2⟩,
    ⟨inv_echoDs2 _ _, rfl, rfl, (key _ _ rfl).1, rfl, (key _ _ rfl).2⟩,
    inv_echoKwp _ _, rfl, rfl, (key _ _ rfl).1, rfl, (key _ _ rfl).2⟩
  have := listed_places (s := { running State.reset .decoding 0x04 [] 0 with
    program := [.poll], schedule := .host :: List.replicate 255 .engine }) rfl (by
      rw [List.mem_cons, List.mem_replicate]
      decide)
  rw [List.length_cons, List.length_replicate, List.countP_cons, List.countP_replicate] at this
  exact ⟨this.1, rfl, by rw [this.2]; decide⟩

/-- With nothing running and no program, whatever the order gives. -/
theorem quiet_step {s t : State} (hb : s.busy = false) (hp : s.program = []) (h : step s = .next t) :
    t.busy = false ∧ t.program = [] := by
  rw [step] at h
  split at h
  · rcases hostTurn_cases h with ⟨_, rfl⟩ | ⟨w, rest, i, hw, _⟩ | ⟨rest, hw, _⟩ | ⟨rest, hw, _⟩
    · exact ⟨hb, hp⟩
    all_goals (rw [show s.takeTurn.program = [] from hp] at hw; cases hw)
  · rw [engineTurn, show s.takeTurn.busy = false from hb] at h
    cases h
    exact ⟨hb, hp⟩
  · cases h
    exact ⟨rfl, hp⟩

theorem quiet_run {k : Nat} {s t : State} (hb : s.busy = false) (hp : s.program = [])
    (h : Host.Core.run core k s = .next t) : t.busy = false ∧ t.program = [] := by
  induction k generalizing s with
  | zero => rw [run_zero] at h; cases h; exact ⟨hb, hp⟩
  | succ k ih =>
    cases hs : step s with
    | next u => rw [run_step k hs] at h; exact ih (quiet_step hb hp hs).1 (quiet_step hb hp hs).2 h
    | fault r => rw [run_step_fault k hs] at h; cases h
    | refused r => rw [run_step_refused k hs] at h; cases h

/-- V2.7 with a polling Host: an Engine step that gets TIMEOUT, and then the Host's round. -/
def polling : State :=
  { running State.reset .decoding 0x04 [.timeout] 0 with program := [.poll], schedule := [.engine, .host] }

/-- Every state of that run: the first, the second, or one with nothing running and no program. -/
theorem polling_run {k : Nat} {u : State} (h : Host.Core.run core k polling = .next u) :
    (u.nextTurn = .engine ∧ u.turnAt 1 = .host) ∨ (u.nextTurn = .host ∧ u.busy = false) ∨
      (u.busy = false ∧ u.program = []) := by
  have h1 : step polling = .next (State.decDs2Finish .noReply polling.takeTurn.rxConsume) := rfl
  match k with
  | 0 => rw [run_zero] at h; cases h; exact .inl ⟨rfl, rfl⟩
  | 1 => rw [run_one, h1] at h; cases h; exact .inr (.inl ⟨rfl, rfl⟩)
  | k + 2 =>
    rw [run_step _ h1, run_step k (show step _ = .next (State.popProgram
      { (State.decDs2Finish .noReply polling.takeTurn.rxConsume).takeTurn with hostData := some 0x0005 }) from rfl)] at h
    exact .inr (.inr (quiet_run rfl rfl h))

theorem witness_FairnessGivesTermination :
    polling.Inv ∧ polling.busy = true ∧ programOk polling.program = true ∧ polling.engineFair ∧
    polling.cmd = 0x04 ∧ polling.phase ≠ .idle ∧ polling.program = .poll :: [] ∧ programOk [] = true ∧
    (∀ k u, Host.Core.run core k polling = .next u → u.program = .poll :: [] → u.nextTurn ≠ .reset) ∧
    (∀ k u, Host.Core.run core k polling = .next u → u.program = .poll :: [] → ∃ j, u.turnAt j = .host) := by
  refine ⟨(inv_decoding_ds2 [] 0).env _ _ _ _ _ _ _, rfl, rfl, fun k u h hb => ?_, rfl, by decide, rfl, rfl,
    fun k u h hp => ?_, fun k u h hp => ?_⟩
  all_goals rcases polling_run h with ⟨h1, h2⟩ | ⟨h1, h2⟩ | ⟨h1, h2⟩
  · exact ⟨0, (turnAt_zero u).trans h1⟩
  · rw [h2] at hb; cases hb
  · rw [h1] at hb; cases hb
  · rw [h1]; decide
  · rw [h1]; decide
  · rw [h2] at hp; cases hp
  · exact ⟨1, h2⟩
  · exact ⟨0, (turnAt_zero u).trans h1⟩
  · rw [h2] at hp; cases hp

/-- The smallest DS2 frame (V2.9b), right and with a wrong checksum. -/
theorem witness_WholeDs2FrameVerdict :
    (let f : List Byte := [0x12, 0x03, 0x11]
     let s := running State.reset .decoding 0x04 (f.map .byte) 3
     s.Inv ∧ s.phase = .decoding ∧ s.cmd = 0x04 ∧ s.rxCount = 0 ∧ 3 ≤ f.length ∧ (f.getD 1 0).toNat = f.length ∧
      s.lineGives f [] ∧ s.schedule = List.replicate f.length .engine ++ [] ∧ xorFold f.dropLast = f.getLastD 0) ∧
    (let f : List Byte := [0x12, 0x03, 0x10]
     let s := running State.reset .decoding 0x04 (f.map .byte) 3
     s.Inv ∧ (f.getD 1 0).toNat = f.length ∧ s.lineGives f [] ∧ xorFold f.dropLast ≠ f.getLastD 0) :=
  ⟨⟨inv_decoding_ds2 _ _, rfl, rfl, rfl, by decide, by decide, rfl, rfl, by decide⟩,
    inv_decoding_ds2 _ _, by decide, rfl, by decide⟩

/-- V3.11 and V3.12. -/
theorem witness_WholeKwpFrameVerdict :
    (let f : List Byte := [0xB8, 0xF1, 0x12, 0x00, 0x5B]
     let s := running State.reset .decoding 0x05 (f.map .byte) 5
     s.Inv ∧ s.phase = .decoding ∧ s.cmd = 0x05 ∧ s.rxCount = 0 ∧ f.getD 0 0 = 0xB8 ∧ 5 ≤ f.length ∧
      (f.getD 3 0).toNat + 5 = f.length ∧ s.lineGives f [] ∧
      s.schedule = List.replicate f.length .engine ++ [] ∧ xorFold f.dropLast = f.getLastD 0) ∧
    (let f : List Byte := [0xB8, 0xF1, 0x12, 0x00, 0x5A]
     let s := running State.reset .decoding 0x05 (f.map .byte) 5
     s.Inv ∧ (f.getD 3 0).toNat + 5 = f.length ∧ s.lineGives f [] ∧ xorFold f.dropLast ≠ f.getLastD 0) :=
  ⟨⟨inv_decoding_kwp _ _, rfl, rfl, rfl, rfl, by decide, by decide, rfl, rfl, by decide⟩,
    inv_decoding_kwp _ _, by decide, rfl, by decide⟩

theorem witness_Ds2RoundTrip :
    (let p : List Byte := []
     let s : State := { req 0x32 0xF1 [] with
       rx := (encodeDs2 0x32 p).map .byte, schedule := List.replicate (p.length + 3) .engine }
     s.Inv ∧ s.busy = false ∧ p.length ≤ 252 ∧ s.lineGives (encodeDs2 0x32 p) [] ∧
      s.schedule = List.replicate (p.length + 3) .engine ++ []) :=
  ⟨inv_req _ _, rfl, by decide, rfl, rfl⟩

theorem witness_KwpRoundTrip :
    (let p : List Byte := []
     let s : State := { req 0x32 0xF1 [] with
       rx := (encodeKwp 0xF1 0x12 p).map .byte, schedule := List.replicate (p.length + 5) .engine }
     s.Inv ∧ s.busy = false ∧ p.length ≤ 255 ∧ s.lineGives (encodeKwp 0xF1 0x12 p) [] ∧
      s.schedule = List.replicate (p.length + 5) .engine ++ []) :=
  ⟨inv_req _ _, rfl, by decide, rfl, rfl⟩

/-- V2.7, V2.6 and V3.10. -/
theorem witness_FrameCutShortByTimeout :
    (let s := running State.reset .decoding 0x04 [.timeout] 1
     s.Inv ∧ s.phase = .decoding ∧ s.rxCount = 0 ∧ s.lineGives [] (.timeout :: []) ∧
      s.schedule = List.replicate (0 + 1) .engine ++ [] ∧ s.cmd = 0x04) ∧
    (let p : List Byte := [0x32, 0x04, 0xA0]
     let s := running State.reset .decoding 0x04 (p.map .byte ++ [.timeout]) 4
     s.Inv ∧ s.lineGives p (.timeout :: []) ∧ s.schedule = List.replicate (p.length + 1) .engine ++ [] ∧
      s.cmd = 0x04 ∧ 3 ≤ (p.getD 1 0).toNat ∧ p.length < (p.getD 1 0).toNat) ∧
    (let p : List Byte := [0xB8, 0xF1]
     let s := running State.reset .decoding 0x05 (p.map .byte ++ [.timeout]) 3
     s.Inv ∧ s.lineGives p (.timeout :: []) ∧ s.schedule = List.replicate (p.length + 1) .engine ++ [] ∧
      s.cmd = 0x05 ∧ p.getD 0 0 = 0xB8 ∧ ¬ 4 ≤ p.length) :=
  ⟨⟨inv_decoding_ds2 _ _, rfl, rfl, rfl, rfl, rfl⟩, ⟨inv_decoding_ds2 _ _, rfl, rfl, rfl, by decide, by decide⟩,
    inv_decoding_kwp _ _, rfl, rfl, rfl, by decide, by decide⟩

/-- V2.9 with the length byte at 2, and V3.9. -/
theorem witness_FramingFailuresStopAtOnce :
    (let s := running State.reset .decoding 0x04 [.byte 0x32, .byte 0x02, .byte 0x30] 2
     s.Inv ∧ s.phase = .decoding ∧ s.rxCount = 0 ∧ s.cmd = 0x04 ∧ (0x02#8).toNat < 3 ∧
      s.lineGives [0x32, 0x02] [.byte 0x30] ∧ s.schedule = .engine :: .engine :: []) ∧
    (let s := running State.reset .decoding 0x05 [.byte 0xB9, .byte 0xF1] 1
     s.Inv ∧ s.phase = .decoding ∧ s.rxCount = 0 ∧ s.cmd = 0x05 ∧ (0xB9 : Byte) ≠ 0xB8 ∧
      s.lineGives [0xB9] [.byte 0xF1] ∧ s.schedule = .engine :: []) :=
  ⟨⟨inv_decoding_ds2 _ _, rfl, rfl, rfl, by decide, rfl, rfl⟩,
    inv_decoding_kwp _ _, rfl, rfl, rfl, by decide, rfl, rfl⟩

/-- The lowest bit of the last byte, and the highest of the first that is no framing byte. -/
theorem witness_SingleBitFlipDetected :
    (let f : List Byte := [0x12, 0x03, 0x11]
     let s := running State.reset .decoding 0x04 ((f.set 2 (f.getD 2 0 ^^^ (1#8 <<< 0))).map .byte) 3
     s.Inv ∧ s.phase = .decoding ∧ s.rxCount = 0 ∧ xorFold f.dropLast = f.getLastD 0 ∧ 2 < f.length ∧ 0 < 8 ∧
      s.cmd = 0x04 ∧ 3 ≤ f.length ∧ (f.getD 1 0).toNat = f.length ∧
      s.lineGives (f.set 2 (f.getD 2 0 ^^^ (1#8 <<< 0))) [] ∧
      s.schedule = List.replicate f.length .engine ++ []) ∧
    (let f : List Byte := [0xB8, 0xF1, 0x12, 0x00, 0x5B]
     let s := running State.reset .decoding 0x05 ((f.set 1 (f.getD 1 0 ^^^ (1#8 <<< 7))).map .byte) 5
     s.Inv ∧ xorFold f.dropLast = f.getLastD 0 ∧ 1 < f.length ∧ 7 < 8 ∧ s.cmd = 0x05 ∧ f.getD 0 0 = 0xB8 ∧
      (f.getD 3 0).toNat + 5 = f.length ∧ s.lineGives (f.set 1 (f.getD 1 0 ^^^ (1#8 <<< 7))) [] ∧
      s.schedule = List.replicate f.length .engine ++ []) :=
  ⟨⟨inv_decoding_ds2 _ _, rfl, rfl, by decide, by decide, by decide, rfl, by decide, by decide, rfl, rfl⟩,
    inv_decoding_kwp _ _, by decide, by decide, by decide, rfl, rfl, by decide, rfl, rfl⟩

/-- V4.11: a well-framed echo that differs from what was sent; and the same for KWP2000. -/
theorem witness_EchoIsNotCompared :
    (let e : List Byte := [0x99, 0x05, 0x01, 0x02, 0x9F]
     let s := echoDs2 (e.map .byte) 5
     s.Inv ∧ s.phase = .awaitingEcho ∧ s.rxCount = 0 ∧ xorFold e.dropLast = e.getLastD 0 ∧ s.cmd = 0x06 ∧
      3 ≤ e.length ∧ (e.getD 1 0).toNat = e.length ∧ s.lineGives e [] ∧
      s.schedule = List.replicate e.length .engine ++ [] ∧ e ≠ s.txFrame) ∧
    (let e : List Byte := [0xB8, 0x55, 0x66, 0x00, 0x8B]
     let s := echoKwp (e.map .byte) 5
     s.Inv ∧ xorFold e.dropLast = e.getLastD 0 ∧ s.cmd = 0x07 ∧ e.getD 0 0 = 0xB8 ∧
      (e.getD 3 0).toNat + 5 = e.length ∧ s.lineGives e [] ∧
      s.schedule = List.replicate e.length .engine ++ []) :=
  ⟨⟨inv_echoDs2 _ _, rfl, rfl, by decide, rfl, by decide, by decide, rfl, rfl, by decide⟩,
    inv_echoKwp _ _, by decide, rfl, rfl, by decide, rfl, rfl⟩

/-- V4.12 and V4.2. -/
theorem witness_MissingEchoSwallowsReply :
    (let g : List Byte := [0x32, 0x04, 0xA0, 0x96]
     let s := echoDs2 (g.map .byte ++ [.timeout]) 5
     s.Inv ∧ s.phase = .awaitingEcho ∧ s.cmd = 0x06 ∧ s.rxCount = 0 ∧ 3 ≤ g.length ∧
      (g.getD 1 0).toNat = g.length ∧ xorFold g.dropLast = g.getLastD 0 ∧ s.lineGives g (.timeout :: []) ∧
      s.schedule = List.replicate (g.length + 1) .engine ++ []) ∧
    (let g : List Byte := [0xB8, 0xF1, 0x12, 0x00, 0x5B]
     let s := echoKwp (g.map .byte ++ [.timeout]) 6
     s.Inv ∧ s.phase = .awaitingEcho ∧ s.cmd = 0x07 ∧ s.rxCount = 0 ∧ 5 ≤ g.length ∧ g.getD 0 0 = 0xB8 ∧
      (g.getD 3 0).toNat + 5 = g.length ∧ xorFold g.dropLast = g.getLastD 0 ∧ s.lineGives g (.timeout :: []) ∧
      s.schedule = List.replicate (g.length + 1) .engine ++ []) ∧
    (let s := echoDs2 [.timeout] 1
     s.Inv ∧ s.rx = .timeout :: [] ∧ s.schedule = .engine :: []) :=
  ⟨⟨inv_echoDs2 _ _, rfl, rfl, rfl, by decide, by decide, by decide, rfl, rfl⟩,
    ⟨inv_echoKwp _ _, rfl, rfl, rfl, by decide, rfl, by decide, by decide, rfl, rfl⟩, inv_echoDs2 _ _, rfl, rfl⟩

theorem witness_Ds2TransactionEndToEnd :
    (let d : List Byte := []
     let q := req 0x32 0xF1 []
     let s : State := { q with
       rx := (q.ds2Request ++ encodeDs2 q.reqTarget (0xA0 :: d)).map .byte
       schedule := List.replicate (q.reqLen.toNat + 3 + (d.length + 4)) .engine }
     s.Inv ∧ s.busy = false ∧ s.operandsPresent .xactDs2 = true ∧ s.reqLen.toNat ≤ 252 ∧ d.length ≤ 251 ∧
      s.lineGives (s.ds2Request ++ encodeDs2 s.reqTarget (0xA0 :: d)) [] ∧
      s.schedule = List.replicate (s.reqLen.toNat + 3 + (d.length + 4)) .engine ++ []) :=
  ⟨inv_req _ _, rfl, by decide, by decide, by decide, rfl, rfl⟩

theorem witness_KwpTransactionEndToEnd :
    (let d : List Byte := []
     let q := req 0x32 0xF1 []
     let s : State := { q with
       rx := (q.kwpRequest ++ encodeKwp 0xF1 0x12 d).map .byte
       schedule := List.replicate (q.reqLen.toNat + 5 + (d.length + 5)) .engine }
     s.Inv ∧ s.busy = false ∧ s.operandsPresent .xactKwp = true ∧ d.length ≤ 255 ∧
      s.lineGives (s.kwpRequest ++ encodeKwp 0xF1 0x12 d) [] ∧
      s.schedule = List.replicate (s.reqLen.toNat + 5 + (d.length + 5)) .engine ++ []) :=
  ⟨inv_req _ _, rfl, by decide, by decide, rfl, rfl⟩

end Sys2Proof.Tests
end

section
/-! PROOFS. What one step can do, and that every step keeps the invariant `State.Inv`: from what an accept leaves,
through the decoder's steps, to each command's end. -/

namespace Sys2Proof.Machine

/-! ## What one step can do -/

theorem commandOf_eq_some {c : Byte} {k : Command} (h : commandOf c = some k) : c = k.code := by
  unfold commandOf at h
  split_ifs at h <;> cases h <;> assumption

/-- The decoder step and the ending that run in the phase and with the command of `s` (R102, R122, R143, R147). -/
inductive State.PhaseRun (s : State) :
    (State → Option Verdict × State) → (Verdict → State → State) → Prop where
  | decDs2 (hp : s.phase = .decoding) (hc : s.cmd = 0x04) : PhaseRun s State.decStepDs2 State.decDs2Finish
  | decKwp (hp : s.phase = .decoding) (hc : s.cmd = 0x05) : PhaseRun s State.decStepKwp State.decKwpFinish
  | echoDs2 (hp : s.phase = .awaitingEcho) (hc : s.cmd = 0x06) : PhaseRun s State.decStepDs2 State.echoFinish
  | echoKwp (hp : s.phase = .awaitingEcho) (hc : s.cmd = 0x07) : PhaseRun s State.decStepKwp State.echoFinish
  | replyDs2 (hp : s.phase = .awaitingReply) (hc : s.cmd = 0x06) :
    PhaseRun s State.decStepDs2 State.replyDs2Finish
  | replyKwp (hp : s.phase = .awaitingReply) (hc : s.cmd = 0x07) :
    PhaseRun s State.decStepKwp State.replyKwpFinish

/-- Everything the Engine can do in one step while BUSY. -/
theorem engineStep_cases {s t : State} (hb : s.busy = true) (h : engineStep s = .next t) :
    ∃ dec fin, s.PhaseRun dec fin ∧ t = phaseStep (dec s) fin := by
  have hb' : s.phase.busy = true := hb
  rw [engineStep] at h
  split at h
  · cases h
  · cases hp : s.phase <;> rw [hp] at hb' h
    case idle | complete | failed => cases hb'
    all_goals
      simp only at h
      split at h <;> cases h
      all_goals rename_i hc
    · exact ⟨_, _, .decDs2 hp (commandOf_eq_some hc), rfl⟩
    · exact ⟨_, _, .decKwp hp (commandOf_eq_some hc), rfl⟩
    · exact ⟨_, _, .echoDs2 hp (commandOf_eq_some hc), rfl⟩
    · exact ⟨_, _, .echoKwp hp (commandOf_eq_some hc), rfl⟩
    · exact ⟨_, _, .replyDs2 hp (commandOf_eq_some hc), rfl⟩
    · exact ⟨_, _, .replyKwp hp (commandOf_eq_some hc), rfl⟩

/-- Whose place a step is: the Host's, the Engine's while BUSY, an idle place of the Engine, or a reset. -/
theorem step_cases {s t : State} (h : step s = .next t) :
    (s.nextTurn = .host ∧ hostTurn s.takeTurn = .next t) ∨
    (s.nextTurn = .engine ∧ s.busy = true ∧ engineStep s.takeTurn = .next t) ∨
    (s.nextTurn = .engine ∧ s.busy = false ∧ t = s.takeTurn) ∨
    (s.nextTurn = .reset ∧ t = s.takeTurn.applyReset) := by
  rw [step] at h
  split at h
  next hn => exact .inl ⟨hn, h⟩
  next hn =>
    rw [engineTurn] at h
    split at h
    next hb => exact .inr (.inl ⟨hn, hb, h⟩)
    next hb => cases h; exact .inr (.inr (.inl ⟨hn, eq_false_of_ne_true hb, rfl⟩))
  next hn => cases h; exact .inr (.inr (.inr ⟨hn, rfl⟩))

/-! ## States between an accept and the end of its command -/

/-- The buffers' part of the invariant speaks of these fields only. -/
theorem State.Buffers.congr {s t : State} (h : s.Buffers) (hmem : t.mem = s.mem := by rfl)
    (hwritten : t.written = s.written := by rfl) (htx : t.txLen = s.txLen := by rfl)
    (hrx : t.rxCount = s.rxCount := by rfl) (hecho : t.echoCount = s.echoCount := by rfl)
    (hacc : t.decAcc = s.decAcc := by rfl) : t.Buffers where
  memWf := hmem ▸ h.memWf
  memInBuffer := hmem ▸ h.memInBuffer
  writtenWf := hwritten ▸ h.writtenWf
  writtenRequest := hwritten ▸ h.writtenRequest
  txLenLe := htx ▸ h.txLenLe
  rxCountLe := hrx ▸ h.rxCountLe
  echoCountLe := hecho ▸ h.echoCountLe
  accFold := by rw [State.rxFrame, hacc, hmem, hrx]; exact h.accFold

theorem buffers_decBegin {s : State} (h : s.Buffers) : s.decBegin.Buffers :=
  { h with rxCountLe := Nat.zero_le _, accFold := rfl }

/-- What an accept leaves (R140) and a running command keeps: no outcome but DETAIL is recorded yet. -/
structure State.Pending (s : State) : Prop where
  buffers : s.Buffers
  result : s.result = .none
  statusClass : s.statusClass = .none
  statusRaw : s.statusRaw = 0x00
  payOff : s.payOff = 0
  payLen : s.payLen = 0

theorem State.Pending.congr {s t : State} (h : s.Pending) (hb : t.Buffers) (hresult : t.result = s.result := by rfl)
    (hclass : t.statusClass = s.statusClass := by rfl) (hraw : t.statusRaw = s.statusRaw := by rfl)
    (hoff : t.payOff = s.payOff := by rfl) (hlen : t.payLen = s.payLen := by rfl) : t.Pending :=
  ⟨hb, hresult.trans h.result, hclass.trans h.statusClass, hraw.trans h.statusRaw, hoff.trans h.payOff,
    hlen.trans h.payLen⟩

theorem State.Pending.of_clearOutcome {s : State} (h : s.Buffers) : s.clearOutcome.Pending :=
  ⟨h.congr, rfl, rfl, rfl, rfl, rfl⟩

theorem State.Inv.pending {s : State} (h : s.Inv) (hb : s.busy = true) : s.Pending := by
  obtain ⟨hrunning, hunclassified, _⟩ := h.status
  have hclass := hrunning hb
  have hphase : s.phase ≠ .complete := fun hp => by simp [State.busy, hp, Phase.busy] at hb
  have hresult : s.result = .none := by
    have hfit := h.outcome
    unfold State.outcomeFits at hfit
    cases hp : s.phase <;> simp only [State.busy, hp, Phase.busy, Bool.false_eq_true] at hb hfit
    all_goals exact hfit.1
  obtain ⟨hoff, hlen⟩ | ⟨hp, _⟩ := h.window
  · exact ⟨h.buffers, hresult, hclass, hunclassified hclass, hoff, hlen⟩
  · exact absurd hp hphase

/-! ## The invariant, by the kind of state -/

/-- The status registers while nothing is classified (R26, R27). -/
theorem statusFits_unclassified {s : State} (hc : s.statusClass = .none) (hr : s.statusRaw = 0x00)
    (hne : s.result ≠ .deviceStatusError) : s.statusFits :=
  ⟨fun _ => hc, fun _ => hr, fun h => absurd hc h, fun h => absurd h hne, fun h => absurd hc h.1⟩

/-- No command runs: only the buffers, the outcome, the window and the status registers are spoken of. -/
theorem inv_of_not_busy {s : State} (hb : s.busy = false) (buffers : s.Buffers) (window : s.windowFits)
    (outcome : s.outcomeFits) (failure : s.failureFits) (status : s.statusFits) : s.Inv where
  __ := buffers
  window := window
  outcome := outcome
  failure := failure
  status := status
  command := by
    unfold State.commandFits
    cases hp : s.phase <;> simp only [State.busy, hp, Phase.busy, Bool.true_eq_false] at hb ⊢
  ds2 h := absurd h (by simp [hb])
  kwp h := absurd h (by simp [hb])
  sent h := by rcases h with hp | hp <;> simp [State.busy, hp, Phase.busy] at hb

/-- A command ends in COMPLETE (R9): the window and the class it recorded. -/
theorem inv_complete {s : State} (buffers : s.Buffers) (window : s.complete.windowFits)
    (detail : s.detail = none ∨ s.detail = some .ok) (status : s.complete.statusFits) : s.complete.Inv :=
  inv_of_not_busy rfl buffers.congr window ⟨rfl, detail⟩ (fun h => by cases h) status

/-- A command fails (R9, R172): what a failure records decides that RESULT is a failure's. -/
theorem inv_raise {s : State} {r : ResultCode} (buffers : s.Buffers) (window : s.payOff = 0 ∧ s.payLen = 0)
    (failure : (s.raise r).failureFits) (status : (s.raise r).statusFits) : (s.raise r).Inv :=
  inv_of_not_busy rfl buffers.congr (.inl window)
    ⟨fun h => by subst h; exact failure rfl, fun h => by subst h; exact failure rfl⟩ failure status

theorem State.Pending.raise_inv {s : State} {r : ResultCode} (h : s.Pending) (hr : r ≠ .deviceStatusError)
    (failure : (s.raise r).failureFits) : (s.raise r).Inv :=
  inv_raise h.buffers ⟨h.payOff, h.payLen⟩ failure (statusFits_unclassified h.statusClass h.statusRaw hr)

/-- A command runs: nothing is recorded but DETAIL, and the decode and the transaction are under way. -/
theorem State.Pending.running_inv {s : State} (h : s.Pending) (hb : s.busy = true) (outcome : s.outcomeFits)
    (command : s.commandFits) (ds2 : s.cmd = 0x04 ∨ s.cmd = 0x06 → s.ds2Progress)
    (kwp : s.cmd = 0x05 ∨ s.cmd = 0x07 → s.kwpProgress) (sent : s.requestSent) : s.Inv where
  __ := h.buffers
  window := .inl ⟨h.payOff, h.payLen⟩
  outcome := outcome
  failure hp := by simp [State.busy, hp, Phase.busy] at hb
  command := command
  status := statusFits_unclassified h.statusClass h.statusRaw (by simp [h.result])
  ds2 _ := ds2
  kwp _ := kwp
  sent := sent

theorem ds2Progress_start {s : State} (hc : s.rxCount = 0) (hn : s.decNeed = 0) : s.ds2Progress :=
  ⟨fun _ => hn, fun h => by simp [hc] at h⟩

theorem kwpProgress_start {s : State} (hc : s.rxCount = 0) (hn : s.decNeed = 0) : s.kwpProgress :=
  ⟨fun h => by simp [hc] at h, fun _ => hn, fun h => by simp [hc] at h⟩

/-- A command that runs and waits for a frame's first byte. -/
theorem State.Pending.frameStart_inv {s : State} (h : s.Pending) (hb : s.busy = true) (outcome : s.outcomeFits)
    (command : s.commandFits) (hcount : s.rxCount = 0) (hneed : s.decNeed = 0) (sent : s.requestSent) : s.Inv :=
  h.running_inv hb outcome command (fun _ => ds2Progress_start hcount hneed)
    (fun _ => kwpProgress_start hcount hneed) sent

/-! ## The commands at their accept -/

section
variable {u : State} (hu : u.Pending) (hd : u.detail = none)
include hu hd

theorem State.Pending.complete_inv : u.complete.Inv :=
  inv_complete hu.buffers (.inl ⟨hu.payOff, hu.payLen⟩) (.inl hd)
    (statusFits_unclassified hu.statusClass hu.statusRaw nofun)

theorem inv_csumBody : u.csumBody.Inv :=
  State.Pending.complete_inv (u := { u with csumOut := xorFold u.payload }) (hu.congr hu.buffers.congr) hd

theorem inv_raiseTooLong : u.raiseTooLong.Inv :=
  State.Pending.raise_inv (s := { u with txLen := 0 })
    (hu.congr { hu.buffers with txLenLe := Nat.zero_le _ }) nofun fun _ => ⟨hd, rfl⟩

theorem inv_storeTx_complete {f : List Byte} (hf : f.length ≤ 260) : (u.storeTx f).complete.Inv :=
  State.Pending.complete_inv (u := u.storeTx f) (hu.congr (buffers_storeTx hu.buffers hf)) hd

theorem inv_encDs2Body : u.encDs2Body.Inv := by
  have hlen := u.reqLen.isLt
  rw [State.encDs2Body]
  split
  · exact inv_raiseTooLong hu hd
  · exact inv_storeTx_complete hu hd (by rw [length_ds2Request]; omega)

theorem inv_encKwpBody : u.encKwpBody.Inv := by
  have hlen := u.reqLen.isLt
  exact inv_storeTx_complete hu hd (by rw [length_kwpRequest]; omega)

theorem inv_beginDecode (hc : u.cmd = 0x04 ∨ u.cmd = 0x05) : u.beginDecode.Inv :=
  State.Pending.frameStart_inv (hu.congr (buffers_decBegin hu.buffers).congr) rfl ⟨hu.result, hd⟩ hc rfl rfl
    (fun h => by rcases h with hp | hp <;> cases hp)

/-- The transmitted request is what TX_FRAME holds (R33, R141, R142). -/
theorem inv_transmit {f : List Byte} (hc : u.cmd = 0x06 ∨ u.cmd = 0x07) (hf3 : 3 ≤ f.length)
    (hf : f.length ≤ 260) (hhead : u.cmd = 0x06 → f.getD 0 0 = u.reqTarget) : (u.transmit f).Inv := by
  have hlen : (u.transmit f).txLen.toNat = f.length := toNat_ofNat_count hf
  have hbuf : State.Buffers { u.storeTx f with echoCount := 0 } :=
    { buffers_storeTx hu.buffers hf with echoCountLe := Nat.zero_le _ }
  refine State.Pending.frameStart_inv (hu.congr (buffers_decBegin hbuf).congr) rfl ⟨hu.result, hd⟩ hc rfl rfl
    (fun _ => ⟨by rwa [hlen], ?_, fun h6 => ?_⟩)
  · rw [State.txFrame, hlen, State.transmit_mem, Memory.readBytes_writeBytes hu.buffers.memWf]
    simp
  · calc (u.mem.writeBytes txBase f).read (txBase + 0)
      _ = f[0] := Memory.read_writeBytes_inside hu.buffers.memWf f txBase 0 (by omega)
      _ = f.getD 0 0 := (List.getD_eq_getElem f 0 (by omega)).symm
      _ = u.reqTarget := hhead h6

theorem inv_xactDs2Body (hc : u.cmd = 0x06) : u.xactDs2Body.Inv := by
  have hlen := u.reqLen.isLt
  rw [State.xactDs2Body]
  split
  · exact inv_raiseTooLong hu hd
  · exact inv_transmit hu hd (.inl hc) (by simp) (by rw [length_ds2Request]; omega) fun _ => rfl

theorem inv_xactKwpBody (hc : u.cmd = 0x07) : u.xactKwpBody.Inv := by
  have hlen := u.reqLen.isLt
  exact inv_transmit hu hd (.inr hc) (by rw [length_kwpRequest]; omega) (by rw [length_kwpRequest]; omega)
    fun h6 => by rw [hc] at h6; cases h6

theorem inv_illegalBody : (u.raise .illegalCommand).Inv := hu.raise_inv nofun fun _ => hd

end

/-! ## The Host's place -/

/-- CMD alone changes while no command runs, as in an accept that finds an operand missing (R140). -/
theorem inv_setCmd {s : State} (h : s.Inv) (hb : s.busy = false) (c : Byte) : State.Inv { s with cmd := c } :=
  inv_of_not_busy hb h.buffers.congr h.window h.outcome h.failure h.status

theorem inv_markFault {s : State} (h : s.Inv) (f : ModelFault) : (s.markFault f).Inv := h.env ..

/-- The accept (R140) keeps the invariant when the command's own part does, from what the accept leaves. -/
theorem inv_accept {s : State} (h : s.Inv) {c : Byte} {present : State → Bool} {body : State → State}
    (hbody : ∀ u : State, u.Pending → u.detail = none → u.cmd = c → (body u).Inv) :
    (s.accept c present body).Inv := by
  cases hb : s.busy
  case true =>
    rw [accept_busy _ _ _ hb]
    exact inv_markFault h _
  case false =>
    have hset := inv_setCmd h hb c
    cases hp : present s
    case false =>
      rw [accept_missing _ _ hb hp]
      exact inv_markFault hset _
    case true =>
      rw [accept_run _ _ hb hp]
      exact hbody _ (State.Pending.of_clearOutcome hset.buffers) rfl rfl

theorem inv_commandCode {s t : State} {c : Byte} (h : s.Inv) (ht : execCommandCode c s = .next t) : t.Inv := by
  rw [execCommandCode] at ht
  split at ht <;> cases ht
  · exact inv_accept h fun u hu hd _ => inv_csumBody hu hd
  · exact inv_accept h fun u hu hd _ => inv_encDs2Body hu hd
  · exact inv_accept h fun u hu hd _ => inv_encKwpBody hu hd
  · exact inv_accept h fun u hu hd hc => inv_beginDecode hu hd (.inl hc)
  · exact inv_accept h fun u hu hd hc => inv_beginDecode hu hd (.inr hc)
  · exact inv_accept h fun u hu hd hc => inv_xactDs2Body hu hd hc
  · exact inv_accept h fun u hu hd hc => inv_xactKwpBody hu hd hc
  · exact inv_accept h fun u hu hd _ => inv_illegalBody hu hd

theorem requestAddr_payload {i : Nat} (hi : i < 255) : requestAddr (reqBase + i) = true := by
  rw [reqBase]
  simp only [requestAddr, Bool.or_eq_true, Bool.and_eq_true, decide_eq_true_eq]
  omega

theorem inBuffer_payload {i : Nat} (hi : i < 255) : inBuffer (reqBase + i) = true := by
  rw [reqBase]
  simp only [inBuffer, Bool.or_eq_true, Bool.and_eq_true, decide_eq_true_eq]
  omega

/-- A request register is written and joins W (R51). -/
theorem inv_requestWrite {s : State} (h : s.Inv) (hb : s.busy = false) (target source len : Byte) {a : Nat}
    (ha : requestAddr a = true) :
    State.Inv { s with
      reqTarget := target, reqSource := source, reqLen := len, written := s.written.insert a } := by
  refine inv_of_not_busy hb { h.buffers with writtenWf := WrittenSet.wf_insert a h.writtenWf, writtenRequest := ?_ }
    h.window h.outcome h.failure h.status
  intro x hx
  rcases WrittenSet.mem_insert.1 hx with rfl | hx
  · exact ha
  · exact h.writtenRequest x hx

/-- What a failure records speaks of RX_FRAME's bytes, and of no other memory. -/
theorem failureFits_congr_mem {s : State} {m : Memory} (h : s.failureFits)
    (hm : ∀ i, m.read (rxBase + i) = s.mem.read (rxBase + i)) : State.failureFits { s with mem := m } := by
  unfold State.failureFits State.rxByte at h ⊢
  simp only [hm]
  exact h

/-- A byte of REQ_PAYLOAD is stored (R32). -/
theorem inv_payloadWrite {s : State} (h : s.Inv) (hb : s.busy = false) {i : Nat} (hi : i < 255) (b : Byte) :
    State.Inv { s with mem := s.mem.write (reqBase + i) b } := by
  have hrx : ∀ j, (s.mem.write (reqBase + i) b).read (rxBase + j) = s.mem.read (rxBase + j) := fun j =>
    Memory.read_write_ne b (by simp only [reqBase, rxBase]; omega) s.mem
  refine inv_of_not_busy hb { h.buffers with memWf := Memory.wf_write _ _ h.memWf, memInBuffer := ?_, accFold := ?_ }
    h.window h.outcome (failureFits_congr_mem h.failure hrx) h.status
  · intro x hx
    rcases Memory.mem_write hx with hx | hx
    · exact hx ▸ inBuffer_payload hi
    · exact h.memInBuffer x hx
  · exact h.accFold.trans (congrArg xorFold (Memory.readBytes_congr fun j _ => hrx j).symm)

theorem inv_performWrite {s t : State} {l : Sys2Proof.Loc} {b : Byte} (h : s.Inv) (hb : s.busy = false)
    (ht : performWrite l b s = .next t) : t.Inv := by
  unfold performWrite at ht
  split at ht
  case h_1 => exact inv_commandCode h ht
  all_goals cases ht
  · exact inv_requestWrite h hb _ _ _ rfl
  · exact inv_requestWrite h hb _ _ _ rfl
  · exact inv_requestWrite h hb _ _ _ rfl
  · rename_i i
    have hw := inv_requestWrite h hb s.reqTarget s.reqSource s.reqLen (requestAddr_payload i.isLt)
    exact inv_payloadWrite hw hb i.isLt b
  all_goals exact h

theorem inv_hwr {s t : State} {a : HostAddr} {d : Half} (h : s.Inv) (ht : execHwr a d s = .next t) : t.Inv := by
  rw [execHwr] at ht
  split at ht
  · cases ht; exact inv_markFault h _
  · split_ifs at ht with hw hd hb
    · cases ht; exact inv_markFault h _
    · cases ht; exact inv_markFault h _
    · cases ht; exact inv_markFault h _
    · exact inv_performWrite h (by simpa using hb) ht

theorem inv_hrd {s t : State} {a : HostAddr} (h : s.Inv) (ht : execHrd a s = .next t) : t.Inv := by
  rw [execHrd] at ht
  split at ht <;> cases ht
  · exact h.env ..
  · exact h.env ..

theorem inv_exec {s t : State} {i : Instr} (h : s.Inv) (ht : exec i s = .next t) : t.Inv := by
  have hc : ∀ c, exec (decodeCmd8 c) s = .next t → t.Inv := fun c h' =>
    inv_commandCode h (exec_decodeCmd8 c s ▸ h')
  cases i with
  | csum => exact hc 1 ht
  | encDs2 => exact hc 2 ht
  | encKwp => exact hc 3 ht
  | decDs2 => exact hc 4 ht
  | decKwp => exact hc 5 ht
  | xactDs2 => exact hc 6 ht
  | xactKwp => exact hc 7 ht
  | illegal c => cases ht; exact inv_accept h fun u hu hd _ => inv_illegalBody hu hd
  | hwr a d => exact inv_hwr h ht
  | hrd a => exact inv_hrd h ht

theorem inv_hostTurn {s t : State} (h : s.Inv) (ht : hostTurn s = .next t) : t.Inv := by
  rcases hostTurn_cases ht with ⟨_, rfl⟩ | ⟨_, _, _, _, _, ht⟩ | ⟨_, _, _, rfl⟩ | ⟨_, _, _, rfl⟩
  · exact h
  · exact inv_exec (h.env ..) ht
  · exact h.env ..
  · exact h.env ..

/-! ## The Engine's place -/

namespace StepOut

variable {u t : State} {p : State → Prop} {v : Option Verdict}

theorem cmd (h : StepOut u t p v) : t.cmd = u.cmd := (congrArg State.cmd h.frame :)
theorem phase (h : StepOut u t p v) : t.phase = u.phase := (congrArg State.phase h.frame :)
theorem detail (h : StepOut u t p v) : t.detail = u.detail := (congrArg State.detail h.frame :)
theorem reqTarget (h : StepOut u t p v) : t.reqTarget = u.reqTarget := (congrArg State.reqTarget h.frame :)
theorem txLen (h : StepOut u t p v) : t.txLen = u.txLen := (congrArg State.txLen h.frame :)
theorem txLog (h : StepOut u t p v) : t.txLog = u.txLog := (congrArg State.txLog h.frame :)

theorem result (h : StepOut u t p v) : t.result = u.result := (congrArg State.result h.frame :)

theorem pending (h : StepOut u t p v) (hu : u.Pending) : t.Pending :=
  hu.congr h.buffers h.result (congrArg State.statusClass h.frame :) (congrArg State.statusRaw h.frame :)
    (congrArg State.payOff h.frame :) (congrArg State.payLen h.frame :)

/-- The transmitted request stands in TX_FRAME and in TXLOG as before the step. -/
theorem sent (h : StepOut u t p v) (hu : u.Inv) (hp : u.phase = .awaitingEcho ∨ u.phase = .awaitingReply) :
    3 ≤ t.txLen.toNat ∧ t.txLog.getLast? = some t.txFrame ∧ (t.cmd = 0x06 → t.txByte 0 = t.reqTarget) := by
  have hframe : t.txFrame = u.txFrame := by
    have hle := hu.txLenLe
    rw [State.txFrame, State.txFrame, h.txLen]
    exact Memory.readBytes_congr fun i hi => h.tx i (by omega)
  rw [h.txLen, h.txLog, h.cmd, h.reqTarget, hframe, h.tx 0 (by omega)]
  exact hu.sent hp

/-- CONTINUE: the command still runs, one byte further. -/
theorem inv_continue (h : StepOut u t p v) (hu : u.Inv) (hb : u.busy = true)
    (ds2 : u.cmd = 0x04 ∨ u.cmd = 0x06 → t.ds2Progress) (kwp : u.cmd = 0x05 ∨ u.cmd = 0x07 → t.kwpProgress) :
    t.Inv := by
  refine (h.pending (hu.pending hb)).running_inv ?_ ?_ ?_ (h.cmd ▸ ds2) (h.cmd ▸ kwp) ?_
  · rw [State.busy, h.phase]; exact hb
  · unfold State.outcomeFits; rw [h.phase, h.result, h.detail]; exact hu.outcome
  · unfold State.commandFits; rw [h.phase, h.cmd]; exact hu.command
  · unfold State.requestSent; rw [h.phase]; exact h.sent hu

end StepOut

/-- What a decode's failing verdict finds is what R172 lists for the result of the same name. -/
theorem StepOut.failureFits_decode {u t : State} {p : State → Prop} {v : Verdict} (h : StepOut u t p (some v))
    (hv : v ≠ .ok) : (State.raise v.result { t with detail := some v }).failureFits := by
  intro _
  cases v with
  | ok => exact absurd rfl hv
  | noReply => exact ⟨rfl, h.fails⟩
  | incompleteFrame => exact ⟨rfl, h.fails⟩
  | badLength => exact ⟨rfl, h.fails⟩
  | checksumError => exact ⟨rfl, h.fails⟩
  | unexpectedHeader => exact ⟨rfl, h.fails⟩

/-- What a reply's failing verdict finds is what R172 lists for ReplyFailure's result (R148). -/
theorem StepOut.failureFits_reply {u t : State} {p : State → Prop} {v : Verdict} (h : StepOut u t p (some v))
    (hv : v ≠ .ok) : (State.raise (replyFailure v) { t with detail := some v }).failureFits := by
  intro _
  cases v with
  | ok => exact absurd rfl hv
  | noReply => exact ⟨rfl, h.fails⟩
  | incompleteFrame => exact ⟨rfl, h.fails⟩
  | badLength => exact ⟨rfl, h.fails⟩
  | checksumError => exact ⟨rfl, h.fails⟩
  | unexpectedHeader => exact .inr ⟨rfl, h.fails.1⟩

theorem Verdict.result_ne_deviceStatusError (v : Verdict) : v.result ≠ .deviceStatusError := by cases v <;> decide

theorem replyFailure_ne_deviceStatusError (v : Verdict) : replyFailure v ≠ .deviceStatusError := by
  cases v <;> decide

theorem classify_ne_none (b : Byte) : classify b ≠ .none := by
  unfold classify
  split_ifs <;> decide

theorem toNat_zext16_sub {b : Byte} {k : Half} (h : k.toNat ≤ b.toNat) :
    (zext16 b - k).toNat = b.toNat - k.toNat := by
  rw [BitVec.toNat_sub_of_le (BitVec.le_def.2 (by rwa [toNat_zext16])), toNat_zext16]

/-- A framed decode without a class ends in COMPLETE with its payload window (R36, R109, R127, R155). -/
theorem State.Pending.framed_inv {t : State} (ht : t.Pending) {off len : Half}
    (hoff : off = 2 ∨ off = 3 ∨ off = 4) (hlen : len.toNat ≤ 255)
    (hend : off.toNat + len.toNat + 1 = t.rxCount.toNat) :
    (State.complete { t with detail := some .ok, payOff := off, payLen := len }).Inv :=
  inv_complete ht.buffers.congr (.inr ⟨rfl, rfl, hoff, hlen, hend⟩) (.inr rfl)
    (statusFits_unclassified ht.statusClass ht.statusRaw nofun)

/-- A KWP2000 frame's payload window (R127, R155). -/
theorem State.Pending.framedKwp_inv {t : State} (ht : t.Pending) (hcount : t.rxCount = zext16 (t.rxByte 3) + 5) :
    (State.complete { t with detail := some .ok, payOff := 4, payLen := zext16 (t.rxByte 3) }).Inv := by
  have hlt := (t.rxByte 3).isLt
  refine ht.framed_inv (.inr (.inr rfl)) (by rw [toNat_zext16]; omega) ?_
  rw [hcount, toNat_zext16_add, toNat_zext16, show (4 : Half).toNat = 4 from rfl]
  omega

section
variable {u t : State} {p : State → Prop} {v : Verdict} (h : StepOut u t p (some v)) (ht : t.Pending)
include h ht

theorem inv_decDs2Finish (hok : v = .ok → t.rxCount = zext16 (t.rxByte 1)) : (State.decDs2Finish v t).Inv := by
  unfold State.decDs2Finish
  split
  · have hlt := (t.rxByte 1).isLt
    have hcount : t.rxCount.toNat = (t.rxByte 1).toNat := by rw [hok rfl, toNat_zext16]
    have h3 : 3 ≤ t.rxCount.toNat := h.fails.2
    have hlen : (zext16 (t.rxByte 1) - 3).toNat = (t.rxByte 1).toNat - 3 := toNat_zext16_sub (k := 3) (hcount ▸ h3)
    refine ht.framed_inv (.inl rfl) (by omega) ?_
    rw [show (2 : Half).toNat = 2 from rfl]
    omega
  · exact (ht.congr ht.buffers.congr).raise_inv v.result_ne_deviceStatusError (h.failureFits_decode ‹_›)

theorem inv_decKwpFinish (hok : v = .ok → t.rxCount = zext16 (t.rxByte 3) + 5) :
    (State.decKwpFinish v t).Inv := by
  unfold State.decKwpFinish
  split
  · exact ht.framedKwp_inv (hok rfl)
  · exact (ht.congr ht.buffers.congr).raise_inv v.result_ne_deviceStatusError (h.failureFits_decode ‹_›)

theorem inv_replyKwpFinish (hok : v = .ok → t.rxCount = zext16 (t.rxByte 3) + 5) :
    (State.replyKwpFinish v t).Inv := by
  unfold State.replyKwpFinish
  split
  · exact ht.framedKwp_inv (hok rfl)
  · exact (ht.congr ht.buffers.congr).raise_inv (replyFailure_ne_deviceStatusError v) (h.failureFits_reply ‹_›)

/-- The echo's end (R143 to R146): the reply is awaited with the request as it was sent, or BUS_ERROR. -/
theorem inv_echoFinish (hu : u.Inv) (hp : u.phase = .awaitingEcho) : (State.echoFinish v t).Inv := by
  have hbuf : ∀ d, State.Buffers { t with detail := d, echoCount := t.rxCount } := fun d =>
    { ht.buffers with echoCountLe := ht.buffers.rxCountLe }
  unfold State.echoFinish
  split
  · have hc : t.cmd = 0x06 ∨ t.cmd = 0x07 := by
      have hfit := hu.command
      rw [State.commandFits, hp] at hfit
      exact h.cmd ▸ hfit
    exact State.Pending.frameStart_inv (ht.congr (buffers_decBegin (hbuf (some .ok))).congr) rfl ⟨ht.result, rfl⟩ hc
      rfl rfl fun _ => h.sent hu (.inl hp)
  · exact (ht.congr (hbuf _)).raise_inv nofun fun _ => ⟨⟨_, ‹_›, rfl⟩, rfl⟩

end

/-- ReplyDS2's cascade (R149 to R153) on a framed reply. -/
theorem inv_replyDs2 {t : State} (ht : t.Pending) (hd : t.detail = some .ok)
    (hcount : t.rxCount = zext16 (t.rxByte 1)) (h3 : 3 ≤ t.rxCount.toNat) : t.replyDs2.Inv := by
  have hlt := (t.rxByte 1).isLt
  have hn : t.rxCount.toNat = (t.rxByte 1).toNat := by rw [hcount, toNat_zext16]
  unfold State.replyDs2
  split
  · exact ht.raise_inv nofun fun _ => .inl hd
  · split
    next hshort =>
      exact ht.raise_inv nofun fun _ => ⟨hd, hcount.trans (congrArg zext16 hshort)⟩
    next hlong =>
      have h4 : 4 ≤ (t.rxByte 1).toNat := by
        have : (t.rxByte 1).toNat ≠ 3 := fun he => hlong (BitVec.eq_of_toNat_eq he)
        omega
      have hclass : classify (t.rxByte 2) ≠ .none := classify_ne_none _
      split
      next hbad =>
        exact inv_raise ht.buffers.congr ⟨ht.payOff, ht.payLen⟩ (fun _ => ⟨hd, hn ▸ h4⟩)
          ⟨nofun, fun h => absurd h hclass, fun _ => rfl, fun _ => ⟨hclass, hbad⟩, fun _ => rfl⟩
      next hgood =>
        have hlen : (zext16 (t.rxByte 1) - 4).toNat = (t.rxByte 1).toNat - 4 := toNat_zext16_sub (k := 4) h4
        refine inv_complete ht.buffers.congr (.inr ⟨rfl, hd, .inr (.inl rfl), ?_, ?_⟩) (.inr hd)
          ⟨nofun, fun h => absurd h hclass, fun _ => rfl, nofun, fun h => absurd h.2 hgood⟩
        · show (zext16 (t.rxByte 1) - 4).toNat ≤ 255
          omega
        · show (3 : Half).toNat + (zext16 (t.rxByte 1) - 4).toNat + 1 = t.rxCount.toNat
          rw [show (3 : Half).toNat = 3 from rfl]
          omega

theorem inv_replyDs2Finish {u t : State} {p : State → Prop} {v : Verdict} (h : StepOut u t p (some v))
    (ht : t.Pending) (hok : v = .ok → t.rxCount = zext16 (t.rxByte 1)) : (State.replyDs2Finish v t).Inv := by
  unfold State.replyDs2Finish
  split
  · exact inv_replyDs2 (t := { t with detail := some .ok }) (ht.congr ht.buffers.congr) rfl (hok rfl) h.fails.2
  · exact (ht.congr ht.buffers.congr).raise_inv (replyFailure_ne_deviceStatusError v) (h.failureFits_reply ‹_›)

section
variable {u : State} (hu : u.Inv) (hb : u.busy = true) {fin : Verdict → State → State}
include hu hb

/-- An Engine step of a DS2 command, from what its ending keeps. -/
theorem inv_phaseStep_ds2 (hc : u.cmd = 0x04 ∨ u.cmd = 0x06)
    (hfin : ∀ v t, StepOut u t State.ds2Progress (some v) → t.Pending →
      (v = .ok → t.rxCount = zext16 (t.rxByte 1)) → (fin v t).Inv) :
    (phaseStep u.decStepDs2 fin).Inv := by
  obtain ⟨hout, hok⟩ := decStepDs2_stepOut hu.buffers (hu.ds2 hb hc)
  rw [phaseStep]
  split
  next hv =>
    exact hout.inv_continue hu hb (fun _ => hout.cont hv) fun h => absurd h (by rcases hc with hc | hc <;> simp [hc])
  next v hv =>
    exact hfin v _ (hv ▸ hout) (hout.pending (hu.pending hb)) fun h => hok (h ▸ hv)

/-- An Engine step of a KWP2000 command, from what its ending keeps. -/
theorem inv_phaseStep_kwp (hc : u.cmd = 0x05 ∨ u.cmd = 0x07)
    (hfin : ∀ v t, StepOut u t State.kwpProgress (some v) → t.Pending →
      (v = .ok → t.rxCount = zext16 (t.rxByte 3) + 5) → (fin v t).Inv) :
    (phaseStep u.decStepKwp fin).Inv := by
  obtain ⟨hout, hok⟩ := decStepKwp_stepOut hu.buffers (hu.kwp hb hc)
  rw [phaseStep]
  split
  next hv =>
    exact hout.inv_continue hu hb (fun h => absurd h (by rcases hc with hc | hc <;> simp [hc])) fun _ => hout.cont hv
  next v hv =>
    exact hfin v _ (hv ▸ hout) (hout.pending (hu.pending hb)) fun h => hok (h ▸ hv)

theorem inv_engineStep {t : State} (h : engineStep u = .next t) : t.Inv := by
  obtain ⟨dec, fin, hrun, rfl⟩ := engineStep_cases hb h
  cases hrun with
  | decDs2 _ hc => exact inv_phaseStep_ds2 hu hb (.inl hc) fun _ _ => inv_decDs2Finish
  | decKwp _ hc => exact inv_phaseStep_kwp hu hb (.inl hc) fun _ _ => inv_decKwpFinish
  | echoDs2 hp hc => exact inv_phaseStep_ds2 hu hb (.inr hc) fun _ _ ho ht _ => inv_echoFinish ho ht hu hp
  | echoKwp hp hc => exact inv_phaseStep_kwp hu hb (.inr hc) fun _ _ ho ht _ => inv_echoFinish ho ht hu hp
  | replyDs2 _ hc => exact inv_phaseStep_ds2 hu hb (.inr hc) fun _ _ => inv_replyDs2Finish
  | replyKwp _ hc => exact inv_phaseStep_kwp hu hb (.inr hc) fun _ _ => inv_replyKwpFinish

end

/-! ## Reset, and every step -/

theorem inv_reset : State.reset.Inv :=
  inv_of_not_busy rfl
    ⟨rfl, nofun, rfl, nofun, Nat.zero_le _, Nat.zero_le _, Nat.zero_le _, rfl⟩
    (.inl ⟨rfl, rfl⟩) ⟨rfl, rfl⟩ nofun (statusFits_unclassified rfl rfl nofun)

/-- R200: the reset event leaves what `State.reset` holds, with the Line, the Host and the order as they were. -/
theorem inv_applyReset (s : State) : s.applyReset.Inv :=
  inv_of_not_busy rfl inv_reset.buffers.congr inv_reset.window inv_reset.outcome inv_reset.failure inv_reset.status

/-- Settles O2: at reset no command has run, and the buffers and W are empty. -/
theorem resetMeetsStateInvariant : Obligations.ResetMeetsStateInvariant := inv_reset

/-- Settles O39, by whose place the step is: the Host's, the Engine's, or a reset. -/
theorem stepKeepsStateInvariant : Obligations.StepKeepsStateInvariant := by
  intro s t h ht
  have hturn : s.takeTurn.Inv := h.env ..
  obtain ⟨_, ht⟩ | ⟨_, hb, ht⟩ | ⟨_, _, rfl⟩ | ⟨_, rfl⟩ := step_cases ht
  · exact inv_hostTurn hturn ht
  · exact inv_engineStep hturn hb ht
  · exact hturn
  · exact inv_applyReset _

end Sys2Proof.Machine
end

section
/-! PROOFS. The Line's answers and the fault mark over a step (R40, R44), the address map (R20, R21), the state after
reset (R46), and the Host's accesses to CMD and to the registers with listed values (R22, R82). -/

namespace Sys2Proof.Machine

/-! ## What a step does to the Line's answers and to the fault mark -/

/-- One answer of the Line is taken, and the fault mark is as before. -/
structure State.LineRead (s t : State) : Prop where
  rx : t.rx = s.rx.tail
  faultMark : t.faultMark = s.faultMark

theorem decStepDs2_lineRead (s : State) : s.LineRead s.decStepDs2.2 := by
  cases ha : s.rxAnswer with
  | timeout => rw [decStepDs2_timeout ha]; exact ⟨rfl, rfl⟩
  | byte r =>
    rw [decStepDs2_byte ha, State.ds2Byte]
    split_ifs <;> exact ⟨rfl, rfl⟩

theorem decStepKwp_lineRead (s : State) : s.LineRead s.decStepKwp.2 := by
  cases ha : s.rxAnswer with
  | timeout => rw [decStepKwp_timeout ha]; exact ⟨rfl, rfl⟩
  | byte r =>
    rw [decStepKwp_byte ha, State.kwpByte]
    split_ifs <;> exact ⟨rfl, rfl⟩

/-- The end of a phase takes no answer and leaves the fault mark. -/
def KeepsLine (fin : Verdict → State → State) : Prop :=
  ∀ v u, (fin v u).rx = u.rx ∧ (fin v u).faultMark = u.faultMark

theorem decDs2Finish_keepsLine : KeepsLine State.decDs2Finish := fun v _ => by cases v <;> exact ⟨rfl, rfl⟩

theorem decKwpFinish_keepsLine : KeepsLine State.decKwpFinish := fun v _ => by cases v <;> exact ⟨rfl, rfl⟩

theorem echoFinish_keepsLine : KeepsLine State.echoFinish := fun v _ => by cases v <;> exact ⟨rfl, rfl⟩

theorem replyDs2Finish_keepsLine : KeepsLine State.replyDs2Finish := fun v _ => by
  cases v
  case ok =>
    simp only [State.replyDs2Finish, State.replyDs2]
    split_ifs <;> exact ⟨rfl, rfl⟩
  all_goals exact ⟨rfl, rfl⟩

theorem replyKwpFinish_keepsLine : KeepsLine State.replyKwpFinish := fun v _ => by cases v <;> exact ⟨rfl, rfl⟩

theorem phaseStep_lineRead {s : State} {dec : Option Verdict × State} {fin : Verdict → State → State}
    (h : s.LineRead dec.2) (hf : KeepsLine fin) : s.LineRead (phaseStep dec fin) := by
  rw [phaseStep]
  split
  · exact h
  next v _ =>
    obtain ⟨hrx, hfault⟩ := hf v dec.2
    exact ⟨hrx.trans h.rx, hfault.trans h.faultMark⟩

theorem engineStep_lineRead {s t : State} (hb : s.busy = true) (h : engineStep s = .next t) : s.LineRead t := by
  obtain ⟨dec, fin, hrun, rfl⟩ := engineStep_cases hb h
  cases hrun with
  | decDs2 => exact phaseStep_lineRead (decStepDs2_lineRead s) decDs2Finish_keepsLine
  | decKwp => exact phaseStep_lineRead (decStepKwp_lineRead s) decKwpFinish_keepsLine
  | echoDs2 => exact phaseStep_lineRead (decStepDs2_lineRead s) echoFinish_keepsLine
  | echoKwp => exact phaseStep_lineRead (decStepKwp_lineRead s) echoFinish_keepsLine
  | replyDs2 => exact phaseStep_lineRead (decStepDs2_lineRead s) replyDs2Finish_keepsLine
  | replyKwp => exact phaseStep_lineRead (decStepKwp_lineRead s) replyKwpFinish_keepsLine

/-- Settles O41: the Host's instructions keep a mark that is set, and neither the Engine nor a reset touches it. -/
theorem faultMarkIsSticky : Obligations.FaultMarkIsSticky := by
  refine ⟨rfl, fun s t f hf h => ?_⟩
  obtain ⟨_, h⟩ | ⟨_, hb, h⟩ | ⟨_, _, rfl⟩ | ⟨_, rfl⟩ := step_cases h
  · obtain ⟨_, _, _, _, hkeep⟩ := keeps_hostTurn h
    exact hkeep f hf
  · exact (engineStep_lineRead (s := s.takeTurn) hb h).faultMark.trans hf
  · exact hf
  · exact hf

/-- Settles O42, by whose place the step is. -/
theorem oneReadPerEngineStep : Obligations.OneReadPerEngineStep := by
  intro s t h
  obtain ⟨hn, h⟩ | ⟨hn, hb, h⟩ | ⟨hn, hb, rfl⟩ | ⟨hn, rfl⟩ := step_cases h
  · obtain ⟨hrx, htaken, _⟩ := keeps_hostTurn h
    exact ⟨fun h' => by simp [hn] at h', fun _ => ⟨htaken, hrx⟩⟩
  · have htaken := (engineStep_oneRead (s := s.takeTurn) hb h).rxTaken
    have hrx := (engineStep_lineRead (s := s.takeTurn) hb h).rx
    exact ⟨fun _ => ⟨htaken, hrx⟩, fun h' => absurd ⟨hn, hb⟩ h'⟩
  · exact ⟨fun h' => by simp [hb] at h', fun _ => ⟨rfl, rfl⟩⟩
  · exact ⟨fun h' => by simp [hn] at h', fun _ => ⟨rfl, rfl⟩⟩

/-! ## The address map (R20, R21) -/

/-- The registers stand at these addresses and at no other. -/
theorem regMap_lookup_eq_none {a : Nat} :
    regMap.lookup a = none ↔ a = 0x007 ∨ (0x00B ≤ a ∧ a ≤ 0x00F) ∨ 0x015 ≤ a := by
  rw [List.lookup_eq_none_iff]
  simp only [regMap, List.forall_mem_cons, List.not_mem_nil, false_implies, implies_true, bne_iff_ne, ne_eq,
    and_true]
  omega

theorem locOf_eq_none_iff {a : HostAddr} :
    locOf a = none ↔ regMap.lookup a.toNat = none ∧ ¬ (reqBase ≤ a.toNat ∧ a.toNat - reqBase < 255) ∧
      ¬ (txBase ≤ a.toNat ∧ a.toNat - txBase < 260) ∧ ¬ (rxBase ≤ a.toNat ∧ a.toNat - rxBase < 260) := by
  dsimp only [locOf]
  cases regMap.lookup a.toNat with
  | some r => simp
  | none => split_ifs <;> simp_all

section
variable {a : HostAddr}

theorem locOf_reqPayload {i : Fin 255} (ha : a.toNat = reqBase + i) : locOf a = some (.reqPayload i) := by
  have hi := i.isLt
  have hreg : regMap.lookup (reqBase + i.val) = none := regMap_lookup_eq_none.2 (by rw [reqBase]; omega)
  simp [locOf, hreg, ha]

theorem locOf_txFrame {i : Fin 260} (ha : a.toNat = txBase + i) : locOf a = some (.txFrame i) := by
  have hi := i.isLt
  have hreg : regMap.lookup (txBase + i.val) = none := regMap_lookup_eq_none.2 (by rw [txBase]; omega)
  have hreq : ¬ txBase + i.val - reqBase < 255 := by simp only [txBase, reqBase]; omega
  simp [locOf, hreg, ha, hreq]

theorem locOf_rxFrame {i : Fin 260} (ha : a.toNat = rxBase + i) : locOf a = some (.rxFrame i) := by
  have hi := i.isLt
  have hreg : regMap.lookup (rxBase + i.val) = none := regMap_lookup_eq_none.2 (by rw [rxBase]; omega)
  have hreq : ¬ rxBase + i.val - reqBase < 255 := by simp only [rxBase, reqBase]; omega
  have htx : ¬ rxBase + i.val - txBase < 260 := by simp only [rxBase, txBase]; omega
  simp [locOf, hreg, ha, hreq, htx]

end

theorem locOf_reg_addr (r : RegName) : locOf (Loc.reg r).addr = some (.reg r) := by cases r <;> rfl

@[simp] theorem locOf_addr (l : Sys2Proof.Loc) : locOf l.addr = some l := by
  cases l with
  | reg r => exact locOf_reg_addr r
  | reqPayload i =>
    exact locOf_reqPayload (by rw [Loc.addr, BitVec.toNat_ofNat, reqBase]; omega)
  | txFrame i =>
    exact locOf_txFrame (by rw [Loc.addr, BitVec.toNat_ofNat, txBase]; omega)
  | rxFrame i =>
    exact locOf_rxFrame (by rw [Loc.addr, BitVec.toNat_ofNat, rxBase]; omega)

/-- Settles O10: the reserved addresses are those outside the registers and the three buffers. -/
theorem addressMapMatchesTable : Obligations.AddressMapMatchesTable := by
  refine ⟨locOf_addr, fun a => ?_⟩
  have ha := a.isLt
  rw [locOf_eq_none_iff, regMap_lookup_eq_none, reqBase, txBase, rxBase]
  omega

/-! ## The Host's accesses -/

theorem hostRead_addr_fault {s : State} {l : Sys2Proof.Loc} {f : ModelFault} (h : s.readFault l = some f) :
    s.hostRead l.addr = .error f := by
  simp only [State.hostRead, locOf_addr, h]

/-- Settles O1: the listed values by the definition of `State.reset`, the unspecified locations by what W = {} and the
counts of 0 make of a read of them. -/
theorem resetHoldsListedValues : Obligations.ResetHoldsListedValues := by
  refine ⟨rfl, rfl, rfl, rfl, rfl, rfl, rfl, rfl, rfl, rfl, rfl, rfl, rfl, rfl, rfl, rfl, ?_, ?_, ?_, ?_⟩
  · rintro r (rfl | rfl | rfl) <;> exact hostRead_addr_fault rfl
  · exact fun _ => hostRead_addr_fault rfl
  · exact fun _ => hostRead_addr_fault (by simp [State.readFault, State.reset])
  · exact fun _ => hostRead_addr_fault (by simp [State.readFault, State.reset])

@[simp] theorem lowByte_zext16 (b : Byte) : lowByte (zext16 b) = b := by
  simp [lowByte, zext16]

@[simp] theorem highByte_zext16 (b : Byte) : highByte (zext16 b) = 0 := by
  have hb := b.isLt
  apply BitVec.eq_of_toNat_eq
  rw [highByte, BitVec.extractLsb'_toNat, toNat_zext16, Nat.shiftRight_eq_div_pow, Nat.div_eq_of_lt hb]
  rfl

/-- R56: every command code is refused while BUSY, whatever it selects. -/
theorem execCommandCode_busy {s : State} (c : Byte) (hb : s.busy = true) :
    execCommandCode c s = .next (s.markFault .hostBusy) := by
  rw [execCommandCode]
  split <;> exact congrArg Host.Outcome.next (accept_busy _ _ _ hb)

theorem execHwr_cmd (c : Byte) (s : State) : execHwr 0x000 (zext16 c) s = execCommandCode c s := by
  have hloc : locOf 0x000 = some (.reg .cmd) := locOf_reg_addr .cmd
  rw [execHwr, hloc]
  cases hb : s.busy with
  | true => simp [locWritable, execCommandCode_busy c hb]
  | false => simp [locWritable, performWrite]

/-- Settles O26: of the checks of R51 only BUSY can stop a byte's write of CMD, and then the accept stops too. -/
theorem hostWriteCmdRunsCommand : Obligations.HostWriteCmdRunsCommand := fun s c =>
  (execHwr_cmd c s).trans (exec_decodeCmd8 c s).symm

/-! ### Reads of STATE, RESULT, DETAIL and STATUS_CLASS -/

theorem execHrd_reg {s : State} {r : RegName} (h : s.readFault (.reg r) = none) :
    execHrd (Loc.reg r).addr s = .next { s with hostData := some (s.readReg r) } := by
  simp only [execHrd, State.hostRead, locOf_addr, h, State.readLoc]

theorem hostRead_reg {s : State} {r : RegName} (h : s.readFault (.reg r) = none) :
    s.hostRead (Loc.reg r).addr = .ok (s.readReg r) := by
  simp only [State.hostRead, locOf_addr, h, State.readLoc]

/-- A read of a register whose value `x` has the number `code x` answers the number a table lists for `x`, when the
table agrees with `code`. -/
theorem exec_hrd_listed {α : Type} {table : List (α × Half)} {code : α → Byte} {s : State} {a : HostAddr} {x : α}
    (hread : exec (.hrd a) s = .next { s with hostData := some (zext16 (code x)) })
    (htable : ∀ p ∈ table, zext16 (code p.1) = p.2) :
    ∀ p ∈ table, x = p.1 → exec (.hrd a) s = .next { s with hostData := some p.2 } := fun p hp hx => by
  rw [hread, hx, htable p hp]

theorem Phase.code_range (p : Phase) : p.code.toNat ≤ 0x05 := by cases p <;> decide

theorem ResultCode.code_range (r : ResultCode) :
    r.code.toNat ≤ 0x01 ∨ (0x10 ≤ r.code.toNat ∧ r.code.toNat ≤ 0x14) ∨
      (0x20 ≤ r.code.toNat ∧ r.code.toNat ≤ 0x24) ∨ (0x30 ≤ r.code.toNat ∧ r.code.toNat ≤ 0x31) := by
  cases r <;> decide

theorem detailCode_range (d : Option Verdict) :
    (detailCode d).toNat ≤ 0x01 ∨ (0x10 ≤ (detailCode d).toNat ∧ (detailCode d).toNat ≤ 0x14) := by
  rcases d with _ | v
  · decide
  · cases v <;> decide

theorem StatusClass.code_range (c : StatusClass) : c.code.toNat ≤ 0x05 := by cases c <;> decide

/-- A host read of an 8-bit register returns its number. -/
theorem hostRead_toNat {s : State} {a : HostAddr} {b : Byte} {d : Half} (hread : s.hostRead a = .ok (zext16 b))
    (h : s.hostRead a = .ok d) : d.toNat = b.toNat := by
  obtain rfl : zext16 b = d := Except.ok.inj (hread.symm.trans h)
  exact toNat_zext16 b

/-- Settles O31: each table is checked against the model's numbers, and the reads return these. -/
theorem reservedValuesNeverRead : Obligations.ReservedValuesNeverRead := fun s =>
  ⟨exec_hrd_listed (code := Phase.code) (execHrd_reg (r := .state) rfl) (by decide),
    exec_hrd_listed (code := ResultCode.code) (execHrd_reg (r := .result) rfl) (by decide),
    exec_hrd_listed (code := detailCode) (execHrd_reg (r := .detail) rfl) (by decide),
    exec_hrd_listed (code := StatusClass.code) (execHrd_reg (r := .statusClass) rfl) (by decide),
    fun _ =>
      ⟨fun h => hostRead_toNat (hostRead_reg (r := .state) rfl) h ▸ s.phase.code_range,
        fun h => hostRead_toNat (hostRead_reg (r := .result) rfl) h ▸ s.result.code_range,
        fun h => hostRead_toNat (hostRead_reg (r := .detail) rfl) h ▸ detailCode_range s.detail,
        fun h => hostRead_toNat (hostRead_reg (r := .statusClass) rfl) h ▸ s.statusClass.code_range⟩⟩

end Sys2Proof.Machine
end

section
/-! PROOFS. The Host's accesses (R50 to R60): the checks of a write in the order of R51 and what a performed write
leaves, what a read returns, and the model faults of both. -/

namespace Sys2Proof.Machine

/-! ## Which locations the Host may write (R20, R21, R55) -/

theorem regMap_lookup_eq_some {n : Nat} {r : RegName} (h : regMap.lookup n = some r) : n = r.addr := by
  obtain ⟨front, back, hmap, _⟩ := List.lookup_eq_some_iff.1 h
  have hmem : (n, r) ∈ regMap := by simp [hmap]
  have haddr : ∀ p ∈ regMap, p.1 = p.2.addr := by decide
  exact haddr _ hmem

/-- An address names only the location that stands there. -/
theorem locOf_eq_some {a : HostAddr} {l : Sys2Proof.Loc} (h : locOf a = some l) : a = l.addr := by
  have ha := a.isLt
  apply BitVec.eq_of_toNat_eq
  dsimp only [locOf] at h
  cases hreg : regMap.lookup a.toNat with
  | some r =>
    obtain rfl : Loc.reg r = l := by simpa [hreg] using h
    rw [Loc.addr, ← regMap_lookup_eq_some hreg, BitVec.toNat_ofNat, Nat.mod_eq_of_lt ha]
  | none =>
    simp only [hreg] at h
    split_ifs at h <;> cases h <;> rw [Loc.addr, BitVec.toNat_ofNat] <;> dsimp only <;> omega

theorem locWritable_iff (l : Sys2Proof.Loc) : locWritable l = true ↔
    l.addr.toNat = 0x000 ∨ (0x008 ≤ l.addr.toNat ∧ l.addr.toNat ≤ 0x00A) ∨
      (0x100 ≤ l.addr.toNat ∧ l.addr.toNat ≤ 0x1FE) := by
  cases l with
  | reg r => cases r <;> decide
  | reqPayload i => exact iff_of_true rfl (by rw [Loc.addr, BitVec.toNat_ofNat, reqBase]; omega)
  | txFrame i => exact iff_of_false nofun (by rw [Loc.addr, BitVec.toNat_ofNat, txBase]; omega)
  | rxFrame i => exact iff_of_false nofun (by rw [Loc.addr, BitVec.toNat_ofNat, rxBase]; omega)

theorem locOf_writable {a : HostAddr}
    (ha : a.toNat = 0x000 ∨ (0x008 ≤ a.toNat ∧ a.toNat ≤ 0x00A) ∨ (0x100 ≤ a.toNat ∧ a.toNat ≤ 0x1FE)) :
    ∃ l, locOf a = some l ∧ locWritable l = true := by
  have hmapped : locOf a ≠ none := by rw [ne_eq, addressMapMatchesTable.2]; omega
  obtain ⟨l, hl⟩ := Option.ne_none_iff_exists'.1 hmapped
  exact ⟨l, hl, (locWritable_iff l).2 (locOf_eq_some hl ▸ ha)⟩

theorem locOf_readOnly {a : HostAddr}
    (ha : (0x001 ≤ a.toNat ∧ a.toNat ≤ 0x006) ∨ (0x010 ≤ a.toNat ∧ a.toNat ≤ 0x014) ∨
      (0x200 ≤ a.toNat ∧ a.toNat ≤ 0x303) ∨ (0x400 ≤ a.toNat ∧ a.toNat ≤ 0x503)) :
    ∃ l, locOf a = some l ∧ locWritable l = false := by
  have hmapped : locOf a ≠ none := by rw [ne_eq, addressMapMatchesTable.2]; omega
  obtain ⟨l, hl⟩ := Option.ne_none_iff_exists'.1 hmapped
  refine ⟨l, hl, eq_false_of_ne_true fun hw => ?_⟩
  have hrange := (locWritable_iff l).1 hw
  rw [← locOf_eq_some hl] at hrange
  omega

/-- The locations a Host may write (R55), as cases. -/
theorem locWritable_cases {l : Sys2Proof.Loc} (h : locWritable l = true) :
    l = .reg .cmd ∨ l = .reg .reqTarget ∨ l = .reg .reqSource ∨ l = .reg .reqLen ∨ ∃ i, l = .reqPayload i := by
  cases l with
  | reg r => cases r <;> simp [locWritable] at h ⊢
  | reqPayload i => simp
  | txFrame i => cases h
  | rxFrame i => cases h

/-! ## The checks of a host write, in the order of R51 -/

theorem highByte_eq_zero_iff {d : Half} : highByte d = 0 ↔ d.toNat < 0x100 := by
  have hd := d.isLt
  rw [← BitVec.toNat_inj, highByte, BitVec.extractLsb'_toNat, Nat.shiftRight_eq_div_pow,
    show (0 : Byte).toNat = 0 from rfl]
  omega

section
variable {s : State} {a : HostAddr} {d : Half} {l : Sys2Proof.Loc}

theorem execHwr_reserved (hl : locOf a = none) : execHwr a d s = .next (s.markFault .reserved) := by
  rw [execHwr, hl]

theorem execHwr_readOnly (hl : locOf a = some l) (hw : locWritable l = false) :
    execHwr a d s = .next (s.markFault .readOnly) := by
  simp [execHwr, hl, hw]

theorem execHwr_badWrite (hl : locOf a = some l) (hw : locWritable l = true) (hd : 0x100 ≤ d.toNat) :
    execHwr a d s = .next (s.markFault .badWrite) := by
  have hhigh : highByte d ≠ 0 := fun h => absurd (highByte_eq_zero_iff.1 h) (Nat.not_lt.2 hd)
  simp only [execHwr, hl, hw, Bool.not_true, Bool.false_eq_true, if_false, if_pos hhigh]

theorem execHwr_hostBusy (hl : locOf a = some l) (hw : locWritable l = true) (hd : d.toNat < 0x100)
    (hb : s.busy = true) : execHwr a d s = .next (s.markFault .hostBusy) := by
  simp [execHwr, hl, hw, highByte_eq_zero_iff.2 hd, hb]

theorem execHwr_performed (hl : locOf a = some l) (hw : locWritable l = true) (hd : d.toNat < 0x100)
    (hb : s.busy = false) : execHwr a d s = performWrite l (lowByte d) s := by
  simp [execHwr, hl, hw, highByte_eq_zero_iff.2 hd, hb]

end

/-- A host write is a model fault or is performed, and which of them depends on the address, the data and BUSY
alone. -/
theorem execHwr_cases (s : State) (a : HostAddr) (d : Half) :
    (∃ f, ∀ t : State, t.busy = s.busy → execHwr a d t = .next (t.markFault f)) ∨
    (∃ l, locOf a = some l ∧ locWritable l = true ∧ s.busy = false ∧
      ∀ t : State, t.busy = s.busy → execHwr a d t = performWrite l (lowByte d) t) := by
  cases hl : locOf a with
  | none => exact .inl ⟨.reserved, fun _ _ => execHwr_reserved hl⟩
  | some l =>
    cases hw : locWritable l with
    | false => exact .inl ⟨.readOnly, fun _ _ => execHwr_readOnly hl hw⟩
    | true =>
      rcases Nat.lt_or_ge d.toNat 0x100 with hd | hd
      · cases hb : s.busy with
        | true => exact .inl ⟨.hostBusy, fun _ ht => execHwr_hostBusy hl hw hd ht⟩
        | false => exact .inr ⟨l, rfl, hw, rfl, fun _ ht => execHwr_performed hl hw hd ht⟩
      · exact .inl ⟨.badWrite, fun _ _ => execHwr_badWrite hl hw hd⟩

/-- Settles O23: past the checks of R51 before it, a byte's write of a writable location is stopped by BUSY. -/
theorem writeWhileBusyChangesNothing : Obligations.WriteWhileBusyChangesNothing := by
  refine fun s hb => ⟨fun a d hd ha => ?_, fun c => ?_⟩
  · obtain ⟨l, hl, hw⟩ := locOf_writable ha
    exact execHwr_hostBusy hl hw hd hb
  · exact (exec_decodeCmd8 c s).trans (execCommandCode_busy c hb)

/-! ## What a performed write leaves -/

theorem WrittenSet.has_insert_or (w : WrittenSet) (a x : Nat) : (w.insert a).has x = (w.has x || x == a) := by
  rw [WrittenSet.has_insert, Bool.or_comm, Bool.beq_eq_decide_eq]

theorem locOf_payloadAddr {i : Nat} (hi : i < 255) :
    locOf (BitVec.ofNat 12 (0x100 + i)) = some (.reqPayload ⟨i, hi⟩) :=
  locOf_addr (.reqPayload ⟨i, hi⟩)

/-- Settles O24: none of the checks of R51 stops the write, and the updates of the request say what it leaves. -/
theorem hostWriteSetsRequest : Obligations.HostWriteSetsRequest := by
  intro s d hb hd
  have hreg : ∀ r, locWritable (.reg r) = true →
      execHwr (Loc.reg r).addr d s = performWrite (.reg r) (lowByte d) s := fun r hw =>
    execHwr_performed (locOf_reg_addr r) hw hd hb
  refine ⟨⟨_, hreg .reqTarget rfl, rfl, WrittenSet.has_insert_or _ _⟩,
    ⟨_, hreg .reqSource rfl, rfl, WrittenSet.has_insert_or _ _⟩,
    ⟨_, hreg .reqLen rfl, rfl, WrittenSet.has_insert_or _ _⟩, fun hm i hi => ?_⟩
  refine ⟨_, execHwr_performed (locOf_payloadAddr hi) rfl hd hb, rfl, WrittenSet.has_insert_or _ _, ?_, ?_⟩
  · exact (Memory.read_write hm _ _ _).trans (if_pos rfl)
  · exact fun x hx => Memory.read_write_ne _ hx.symm s.mem

/-! ## A repeated write (R58) -/

theorem Memory.write_write_same {m : Memory} (h : m.wf = true) (x : Nat) (v : Byte) :
    (m.write x v).write x v = m.write x v := by
  have hw := Memory.wf_write x v h
  refine Memory.ext (Memory.wf_write x v hw) hw fun y => ?_
  rw [Memory.read_write hw, Memory.read_write h]
  split <;> rfl

theorem WrittenSet.insert_insert_same {w : WrittenSet} (h : w.wf = true) (x : Nat) :
    (w.insert x).insert x = w.insert x :=
  WrittenSet.insert_of_mem (WrittenSet.wf_insert x h) (by simp [WrittenSet.has_insert])

theorem State.markFault_markFault (f : ModelFault) (s : State) : (s.markFault f).markFault f = s.markFault f := by
  simp [State.markFault]

theorem performWrite_keeps_busy {s t : State} {l : Sys2Proof.Loc} {b : Byte} (hl : l ≠ .reg .cmd)
    (ht : performWrite l b s = .next t) : t.busy = s.busy := by
  unfold performWrite at ht
  split at ht
  case h_1 => exact absurd rfl hl
  all_goals cases ht; rfl

theorem performWrite_idempotent {s t : State} {l : Sys2Proof.Loc} {b : Byte} (h : s.Inv) (hw : locWritable l = true)
    (hl : l ≠ .reg .cmd) (ht : performWrite l b s = .next t) : performWrite l b t = .next t := by
  have hins := WrittenSet.insert_insert_same h.writtenWf
  obtain rfl | rfl | rfl | rfl | ⟨i, rfl⟩ := locWritable_cases hw
  · exact absurd rfl hl
  · cases ht; simp only [performWrite, State.setReqTarget, hins]
  · cases ht; simp only [performWrite, State.setReqSource, hins]
  · cases ht; simp only [performWrite, State.setReqLen, hins]
  · cases ht; simp only [performWrite, State.setReqPayload, hins, Memory.write_write_same h.memWf]

/-- The location at an address other than CMD's is not CMD. -/
theorem locOf_ne_cmd {a : HostAddr} {l : Sys2Proof.Loc} (ha : a ≠ 0x000) (hl : locOf a = some l) : l ≠ .reg .cmd := by
  rintro rfl
  exact ha (locOf_eq_some hl)

/-- Settles O27: the repeated write meets the same checks, and is the same fault or the same performed write. -/
theorem requestWritesIdempotent : Obligations.RequestWritesIdempotent := by
  intro s a d h ha t ht
  obtain ⟨f, hfault⟩ | ⟨l, hl, hw, _, hperform⟩ := execHwr_cases s a d
  · obtain rfl : s.markFault f = t := Host.Outcome.next.inj ((hfault s rfl).symm.trans ht)
    exact (hfault (s.markFault f) rfl).trans (congrArg _ (State.markFault_markFault f s))
  · have hcmd := locOf_ne_cmd ha hl
    have ht' : performWrite l (lowByte d) s = .next t := (hperform s rfl).symm.trans ht
    exact (hperform t (performWrite_keeps_busy hcmd ht')).trans (performWrite_idempotent h hw hcmd ht')

/-! ## What a host read returns (R50, R59, R60) -/

section
variable {s : State} {a : HostAddr} {l : Sys2Proof.Loc}

theorem execHrd_of_hostRead_ok {d : Half} (h : s.hostRead a = .ok d) :
    execHrd a s = .next { s with hostData := some d } := by
  rw [execHrd, h]

theorem execHrd_of_hostRead_error {f : ModelFault} (h : s.hostRead a = .error f) :
    execHrd a s = .next { s with hostData := none, faultMark := s.faultMark.or (some f) } := by
  rw [execHrd, h]
  rfl

theorem execHrd_reserved (hl : locOf a = none) :
    execHrd a s = .next { s with hostData := none, faultMark := s.faultMark.or (some .reserved) } :=
  execHrd_of_hostRead_error (by simp only [State.hostRead, hl])

theorem execHrd_readable (hl : locOf a = some l) (hf : s.readFault l = none) :
    execHrd a s = .next { s with hostData := some (s.readLoc l) } :=
  execHrd_of_hostRead_ok (by simp only [State.hostRead, hl, hf])

theorem execHrd_fault {f : ModelFault} (hl : locOf a = some l) (hf : s.readFault l = some f) :
    execHrd a s = .next { s with hostData := none, faultMark := s.faultMark.or (some f) } :=
  execHrd_of_hostRead_error (by simp only [State.hostRead, hl, hf])

end

theorem locOf_txAddr {i : Nat} (hi : i < 260) : locOf (BitVec.ofNat 12 (0x200 + i)) = some (.txFrame ⟨i, hi⟩) :=
  locOf_addr (.txFrame ⟨i, hi⟩)

theorem locOf_rxAddr {i : Nat} (hi : i < 260) : locOf (BitVec.ofNat 12 (0x400 + i)) = some (.rxFrame ⟨i, hi⟩) :=
  locOf_addr (.rxFrame ⟨i, hi⟩)

/-- Settles O25: each address range is one of writable, of read-only or of no locations, and the first check of R51
that applies ends the write. -/
theorem hostAccessModelFaults : Obligations.HostAccessModelFaults := by
  refine fun s a d => ⟨fun hl => ⟨execHwr_reserved hl, execHrd_reserved hl⟩, fun ha => ?_, fun hd ha => ?_⟩
  · obtain ⟨l, hl, hw⟩ := locOf_readOnly ha
    exact execHwr_readOnly hl hw
  · obtain ⟨l, hl, hw⟩ := locOf_writable ha
    exact execHwr_badWrite hl hw hd

/-- Settles O28: a register always answers but for the request registers, and each of these and each buffer byte once
it is readable. -/
theorem hostReadReturnsValue : Obligations.HostReadReturnsValue := fun _ =>
  ⟨execHrd_reg (r := .cmd) rfl, execHrd_reg (r := .state) rfl, execHrd_reg (r := .result) rfl,
    execHrd_reg (r := .detail) rfl, execHrd_reg (r := .statusClass) rfl, execHrd_reg (r := .statusRaw) rfl,
    execHrd_reg (r := .csumOut) rfl,
    fun hw => execHrd_reg (r := .reqTarget) (if_pos hw),
    fun hw => execHrd_reg (r := .reqSource) (if_pos hw),
    fun hw => execHrd_reg (r := .reqLen) (if_pos hw),
    execHrd_reg (r := .txLen) rfl, execHrd_reg (r := .rxCount) rfl, execHrd_reg (r := .echoCount) rfl,
    execHrd_reg (r := .payOff) rfl, execHrd_reg (r := .payLen) rfl,
    fun _ hi hw => execHrd_readable (locOf_payloadAddr hi) (if_pos hw),
    fun _ hi hlt => execHrd_readable (locOf_txAddr hi) (if_pos hlt),
    fun _ hi hlt => execHrd_readable (locOf_rxAddr hi) (if_pos hlt)⟩

theorem execHrd_unwritten {s : State} {l : Sys2Proof.Loc} {a : Nat}
    (hf : s.readFault l = if s.written.has a then none else some .uninit) (hw : s.written.has a = false) :
    execHrd l.addr s = .next { s with hostData := none, faultMark := s.faultMark.or (some .uninit) } :=
  execHrd_fault (locOf_addr l) (by rw [hf, hw]; rfl)

/-- Settles O29: the request locations are UNINIT outside W, and the frame bytes STALE at or past their count. -/
theorem unreadableReadsReturnNoValue : Obligations.UnreadableReadsReturnNoValue := by
  refine fun s => ⟨fun a ha hw => ?_, fun i hi hle => ?_, fun i hi hle => ?_⟩
  · obtain rfl | rfl | rfl | ⟨hlo, hhi⟩ := ha
    · exact execHrd_unwritten (l := .reg .reqTarget) rfl hw
    · exact execHrd_unwritten (l := .reg .reqSource) rfl hw
    · exact execHrd_unwritten (l := .reg .reqLen) rfl hw
    · obtain ⟨i, rfl⟩ := Nat.exists_eq_add_of_le hlo
      exact execHrd_unwritten (l := .reqPayload ⟨i, by omega⟩) rfl hw
  · exact execHrd_fault (locOf_txAddr hi) (if_neg (Nat.not_lt.2 hle))
  · exact execHrd_fault (locOf_rxAddr hi) (if_neg (Nat.not_lt.2 hle))

/-! ## What an access leaves alone (R57) -/

/-- What a read returns does not depend on what the Host read before or on the fault mark. -/
theorem hostRead_congr (s : State) (a : HostAddr) (x : Option Half) (f : Option ModelFault) :
    State.hostRead { s with hostData := x, faultMark := f } a = s.hostRead a := rfl

theorem execHrd_repeats (s : State) (a : HostAddr) : ∃ t, execHrd a s = .next t ∧
    t = { s with hostData := t.hostData, faultMark := t.faultMark } ∧
    ∃ u, execHrd a t = .next u ∧ u.hostData = t.hostData := by
  cases h : s.hostRead a with
  | ok d => exact ⟨_, execHrd_of_hostRead_ok h, rfl, _, execHrd_of_hostRead_ok ((hostRead_congr s a _ _).trans h), rfl⟩
  | error f =>
    exact ⟨_, execHrd_of_hostRead_error h, rfl, _, execHrd_of_hostRead_error ((hostRead_congr s a _ _).trans h), rfl⟩

/-- Settles O30: a read changes only what the Host got and the fault mark; a write other than CMD's is a fault or sets
one request register or one payload byte. -/
theorem readsHaveNoSideEffect : Obligations.ReadsHaveNoSideEffect := by
  refine ⟨execHrd_repeats, fun s a d ha => ?_⟩
  obtain ⟨f, hfault⟩ | ⟨l, hl, hw, _, hperform⟩ := execHwr_cases s a d
  · exact ⟨_, hfault s rfl, rfl, fun _ _ => rfl⟩
  · have hexec : exec (.hwr a d) s = performWrite l (lowByte d) s := hperform s rfl
    rw [hexec]
    obtain rfl | rfl | rfl | rfl | ⟨i, rfl⟩ := locWritable_cases hw
    · exact absurd rfl (locOf_ne_cmd ha hl)
    · exact ⟨_, rfl, rfl, fun _ _ => rfl⟩
    · exact ⟨_, rfl, rfl, fun _ _ => rfl⟩
    · exact ⟨_, rfl, rfl, fun _ _ => rfl⟩
    · exact ⟨_, rfl, rfl, fun x hx => Memory.read_write_ne _ (hx i hl).symm s.mem⟩

end Sys2Proof.Machine
end

section
/-! PROOFS. What nobody may read never matters (R46, R59, R60): two states that meet `State.agreesReadable` stay so
under every update of the state, every instruction, the Engine's step and a reset. -/

namespace Sys2Proof.Machine

/-! ## The second state, as the first one with other values in some places -/

/-- What a second state holds in the places in which `State.agreesReadable` lets it differ. -/
structure Held where
  target : Byte
  source : Byte
  len : Byte
  mem : Memory

/-- The state `s` with the values `v` in those places. -/
def State.holding (s : State) (v : Held) : State :=
  { s with reqTarget := v.target, reqSource := v.source, reqLen := v.len, mem := v.mem }

/-- The values `v` are those of `s` wherever somebody may read them (R59, R60). -/
structure State.Agrees (s : State) (v : Held) : Prop where
  target : s.targetWritten = true → v.target = s.reqTarget
  source : s.sourceWritten = true → v.source = s.reqSource
  len : s.lenWritten = true → v.len = s.reqLen
  payload : ∀ i, i < 255 → s.written.has (reqBase + i) = true → v.mem.read (reqBase + i) = s.mem.read (reqBase + i)
  tx : ∀ i, i < s.txLen.toNat → v.mem.read (txBase + i) = s.mem.read (txBase + i)
  rx : ∀ i, i < s.rxCount.toNat → v.mem.read (rxBase + i) = s.mem.read (rxBase + i)

theorem agreesReadable_iff {s t : State} : s.agreesReadable t ↔ ∃ v, t = s.holding v ∧ s.Agrees v := by
  constructor
  · rintro ⟨ht, htarget, hsource, hlen, hpayload, htx, hrx⟩
    exact ⟨⟨t.reqTarget, t.reqSource, t.reqLen, t.mem⟩, ht, htarget, hsource, hlen, hpayload, htx, hrx⟩
  · rintro ⟨v, rfl, h⟩
    exact ⟨rfl, h.target, h.source, h.len, h.payload, h.tx, h.rx⟩

namespace State.Agrees

variable {s t : State} {v : Held}

theorem readable (h : s.Agrees v) : s.agreesReadable (s.holding v) := agreesReadable_iff.2 ⟨v, rfl, h⟩

/-- The agreement speaks of these fields only, and asks less when a frame is shorter. -/
theorem congr (h : s.Agrees v) (htarget : t.reqTarget = s.reqTarget := by rfl)
    (hsource : t.reqSource = s.reqSource := by rfl) (hlen : t.reqLen = s.reqLen := by rfl)
    (hwritten : t.written = s.written := by rfl) (hmem : t.mem = s.mem := by rfl)
    (htx : t.txLen.toNat ≤ s.txLen.toNat := by exact Nat.le_refl _)
    (hrx : t.rxCount.toNat ≤ s.rxCount.toNat := by exact Nat.le_refl _) : t.Agrees v where
  target hw := by rw [State.targetWritten, hwritten] at hw; rw [htarget]; exact h.target hw
  source hw := by rw [State.sourceWritten, hwritten] at hw; rw [hsource]; exact h.source hw
  len hw := by rw [State.lenWritten, hwritten] at hw; rw [hlen]; exact h.len hw
  payload i hi hw := by rw [hwritten] at hw; rw [hmem]; exact h.payload i hi hw
  tx i hi := by rw [hmem]; exact h.tx i (Nat.lt_of_lt_of_le hi htx)
  rx i hi := by rw [hmem]; exact h.rx i (Nat.lt_of_lt_of_le hi hrx)

end State.Agrees

/-! ## The updates of the buffers and of W -/

/-- The same byte stored in two memories: they still read alike, and at its address they do so from now on. -/
theorem Memory.read_write_alike {m m' : Memory} (h : m.wf = true) (h' : m'.wf = true) {x y : Nat} (b : Byte)
    (hy : x ≠ y → m'.read y = m.read y) : (m'.write x b).read y = (m.write x b).read y := by
  rw [Memory.read_write h, Memory.read_write h']
  split
  · rfl
  next hne => exact hy hne

/-- The same run of bytes stored in two memories: they still read alike. -/
theorem Memory.read_writeBytes_alike {m m' : Memory} (h : m.wf = true) (h' : m'.wf = true) {base y : Nat}
    (bs : List Byte) (hy : m'.read y = m.read y) : (m'.writeBytes base bs).read y = (m.writeBytes base bs).read y := by
  rw [Memory.read_writeBytes bs base y h, Memory.read_writeBytes bs base y h', hy]

theorem WrittenSet.has_of_has_insert {w : WrittenSet} {x y : Nat} (h : (w.insert x).has y = true) (hne : y ≠ x) :
    w.has y = true := by
  simpa [WrittenSet.has_insert, hne] using h

namespace State.Agrees

variable {s : State} {v : Held}

theorem storeTx (h : s.Agrees v) (hs : s.mem.wf = true) (hv : v.mem.wf = true) {f : List Byte} (hf : f.length ≤ 260) :
    (s.storeTx f).Agrees { v with mem := v.mem.writeBytes txBase f } where
  target := h.target
  source := h.source
  len := h.len
  payload i hi hw := Memory.read_writeBytes_alike hs hv f (h.payload i hi hw)
  tx i hi := by
    rw [State.storeTx_txLen, toNat_ofNat_count hf] at hi
    exact (Memory.read_writeBytes_inside hv f txBase i hi).trans (Memory.read_writeBytes_inside hs f txBase i hi).symm
  rx i hi := Memory.read_writeBytes_alike hs hv f (h.rx i hi)

theorem storeRx (h : s.Agrees v) (hs : s.mem.wf = true) (hv : v.mem.wf = true) (hn : s.rxCount.toNat < 260) (r : Byte) :
    (s.storeRx r).Agrees { v with mem := v.mem.write (rxBase + s.rxCount.toNat) r } where
  target := h.target
  source := h.source
  len := h.len
  payload i hi hw := Memory.read_write_alike hs hv r fun _ => h.payload i hi hw
  tx i hi := Memory.read_write_alike hs hv r fun _ => h.tx i hi
  rx i hi := by
    rw [State.storeRx_rxCount, toNat_count_succ hn] at hi
    exact Memory.read_write_alike hs hv r fun hne => h.rx i (by omega)

theorem setReqTarget (h : s.Agrees v) (b : Byte) : (s.setReqTarget b).Agrees { v with target := b } where
  target _ := rfl
  source hw := h.source (WrittenSet.has_of_has_insert hw (by decide))
  len hw := h.len (WrittenSet.has_of_has_insert hw (by decide))
  payload i hi hw := h.payload i hi (WrittenSet.has_of_has_insert hw (by rw [reqBase, RegName.addr]; omega))
  tx := h.tx
  rx := h.rx

theorem setReqSource (h : s.Agrees v) (b : Byte) : (s.setReqSource b).Agrees { v with source := b } where
  target hw := h.target (WrittenSet.has_of_has_insert hw (by decide))
  source _ := rfl
  len hw := h.len (WrittenSet.has_of_has_insert hw (by decide))
  payload i hi hw := h.payload i hi (WrittenSet.has_of_has_insert hw (by rw [reqBase, RegName.addr]; omega))
  tx := h.tx
  rx := h.rx

theorem setReqLen (h : s.Agrees v) (b : Byte) : (s.setReqLen b).Agrees { v with len := b } where
  target hw := h.target (WrittenSet.has_of_has_insert hw (by decide))
  source hw := h.source (WrittenSet.has_of_has_insert hw (by decide))
  len _ := rfl
  payload i hi hw := h.payload i hi (WrittenSet.has_of_has_insert hw (by rw [reqBase, RegName.addr]; omega))
  tx := h.tx
  rx := h.rx

theorem setReqPayload (h : s.Agrees v) (hs : s.mem.wf = true) (hv : v.mem.wf = true) (i : Nat) (b : Byte) :
    (s.setReqPayload i b).Agrees { v with mem := v.mem.write (reqBase + i) b } where
  target hw := h.target (WrittenSet.has_of_has_insert hw (by rw [reqBase, RegName.addr]; omega))
  source hw := h.source (WrittenSet.has_of_has_insert hw (by rw [reqBase, RegName.addr]; omega))
  len hw := h.len (WrittenSet.has_of_has_insert hw (by rw [reqBase, RegName.addr]; omega))
  payload j hj hw := Memory.read_write_alike hs hv b fun hne =>
    h.payload j hj (WrittenSet.has_of_has_insert hw hne.symm)
  tx j hj := Memory.read_write_alike hs hv b fun _ => h.tx j hj
  rx j hj := Memory.read_write_alike hs hv b fun _ => h.rx j hj

end State.Agrees

/-! ## The operands of a command (R140): read only once they are written -/

/-- Of a check that asks for REQ_LEN ∈ W first, the rest matters only with REQ_LEN written. -/
theorem lenWritten_and_congr {u : State} {v : Held} {p q : Bool} (hpq : u.lenWritten = true → p = q) :
    ((u.holding v).lenWritten && p) = (u.lenWritten && q) := by
  have hsame : (u.holding v).lenWritten = u.lenWritten := rfl
  rw [hsame]
  cases hl : u.lenWritten with
  | false => rfl
  | true => rw [hpq hl]

namespace State.Agrees

variable {u : State} {v : Held} (h : u.Agrees v)
include h

theorem tooLong_eq (hl : u.lenWritten = true) : (u.holding v).tooLong = u.tooLong :=
  congrArg (fun n : Byte => decide (Config.ds2MaxPayload < n.toNat)) (h.len hl)

theorem payloadWritten_eq (hl : u.lenWritten = true) : (u.holding v).payloadWritten = u.payloadWritten :=
  congrArg (fun n : Byte => (List.range n.toNat).all fun i => u.written.has (reqBase + i)) (h.len hl)

theorem payload_eq (hl : u.lenWritten = true) (hp : u.payloadWritten = true) : (u.holding v).payload = u.payload := by
  have hlen : (u.holding v).reqLen = u.reqLen := h.len hl
  rw [State.payload, State.payload, hlen]
  refine Memory.readBytes_congr fun i hi => h.payload i ?_ ?_
  · have := u.reqLen.isLt
    omega
  · exact List.all_eq_true.1 hp i (List.mem_range.2 hi)

theorem ds2Request_eq (hl : u.lenWritten = true) (ht : u.targetWritten = true) (hp : u.payloadWritten = true) :
    (u.holding v).ds2Request = u.ds2Request := by
  have htarget : (u.holding v).reqTarget = u.reqTarget := h.target ht
  rw [State.ds2Request, State.ds2Request, htarget, h.payload_eq hl hp]

theorem kwpRequest_eq (hp : u.kwpPresent = true) : (u.holding v).kwpRequest = u.kwpRequest := by
  simp only [State.kwpPresent, Bool.and_eq_true] at hp
  obtain ⟨⟨⟨hl, ht⟩, hsrc⟩, hpay⟩ := hp
  have htarget : (u.holding v).reqTarget = u.reqTarget := h.target ht
  have hsource : (u.holding v).reqSource = u.reqSource := h.source hsrc
  rw [State.kwpRequest, State.kwpRequest, htarget, hsource, h.payload_eq hl hpay]

theorem csumPresent_eq : (u.holding v).csumPresent = u.csumPresent := lenWritten_and_congr h.payloadWritten_eq

theorem ds2Present_eq : (u.holding v).ds2Present = u.ds2Present :=
  lenWritten_and_congr fun hl => congrArg₂ (· || ·) (h.tooLong_eq hl) (congrArg (_ && ·) (h.payloadWritten_eq hl))

theorem kwpPresent_eq : (u.holding v).kwpPresent = u.kwpPresent := by
  simp only [State.kwpPresent, Bool.and_assoc]
  exact lenWritten_and_congr fun hl => congrArg (_ && ·) (congrArg (_ && ·) (h.payloadWritten_eq hl))

end State.Agrees

/-! ## The commands at their accept -/

section
variable {u : State} {v : Held} (h : u.Agrees v)
include h

theorem csumBody_agrees (hp : u.csumPresent = true) : u.csumBody.agreesReadable (u.holding v).csumBody := by
  obtain ⟨hl, hpay⟩ := Bool.and_eq_true_iff.1 hp
  rw [State.csumBody, State.csumBody, h.payload_eq hl hpay]
  exact State.Agrees.readable (v := v) h.congr

/-- The two DS2 commands with a request (R100, R141): PAYLOAD_TOO_LONG, or `k` with the request frame. -/
theorem ds2Body_agrees {k : List Byte → State → State} (hp : u.ds2Present = true)
    (hk : (k u.ds2Request u).agreesReadable (k u.ds2Request (u.holding v))) :
    (if u.tooLong then u.raiseTooLong else k u.ds2Request u).agreesReadable
      (if (u.holding v).tooLong then (u.holding v).raiseTooLong else k (u.holding v).ds2Request (u.holding v)) := by
  simp only [State.ds2Present, Bool.and_eq_true, Bool.or_eq_true] at hp
  obtain ⟨hl, hoperands⟩ := hp
  rw [h.tooLong_eq hl]
  split
  · exact State.Agrees.readable (v := v) (h.congr (htx := Nat.zero_le _))
  next hfits =>
    obtain ⟨ht, hpay⟩ := hoperands.resolve_left hfits
    rwa [h.ds2Request_eq hl ht hpay]

variable (hs : u.mem.wf = true) (hv : v.mem.wf = true)
include hs hv

theorem storeTx_complete_agrees {f : List Byte} (hf : f.length ≤ 260) :
    (u.storeTx f).complete.agreesReadable ((u.holding v).storeTx f).complete :=
  State.Agrees.readable (v := { v with mem := v.mem.writeBytes txBase f }) (h.storeTx hs hv hf).congr

theorem transmit_agrees {f : List Byte} (hf : f.length ≤ 260) :
    (u.transmit f).agreesReadable ((u.holding v).transmit f) :=
  State.Agrees.readable (v := { v with mem := v.mem.writeBytes txBase f })
    ((h.storeTx hs hv hf).congr (hrx := Nat.zero_le _))

theorem encDs2Body_agrees (hp : u.ds2Present = true) : u.encDs2Body.agreesReadable (u.holding v).encDs2Body :=
  have hlen : u.ds2Request.length ≤ 260 := by rw [length_ds2Request]; have := u.reqLen.isLt; omega
  ds2Body_agrees (k := fun f w => (w.storeTx f).complete) h hp (storeTx_complete_agrees h hs hv hlen)

theorem xactDs2Body_agrees (hp : u.ds2Present = true) : u.xactDs2Body.agreesReadable (u.holding v).xactDs2Body :=
  have hlen : u.ds2Request.length ≤ 260 := by rw [length_ds2Request]; have := u.reqLen.isLt; omega
  ds2Body_agrees (k := State.transmit) h hp (transmit_agrees h hs hv hlen)

theorem encKwpBody_agrees (hp : u.kwpPresent = true) : u.encKwpBody.agreesReadable (u.holding v).encKwpBody := by
  rw [State.encKwpBody, State.encKwpBody, h.kwpRequest_eq hp]
  exact storeTx_complete_agrees h hs hv (by rw [length_kwpRequest]; have := u.reqLen.isLt; omega)

theorem xactKwpBody_agrees (hp : u.kwpPresent = true) : u.xactKwpBody.agreesReadable (u.holding v).xactKwpBody := by
  rw [State.xactKwpBody, State.xactKwpBody, h.kwpRequest_eq hp]
  exact transmit_agrees h hs hv (by rw [length_kwpRequest]; have := u.reqLen.isLt; omega)

end

/-- What an accept leaves for the command's own part (R140). -/
def State.accepted (c : Byte) (s : State) : State := ({ s with cmd := c } : State).clearOutcome

/-- The accept (R140): both states take the same of its three ways. -/
theorem accept_agrees {s : State} {v : Held} (h : s.Agrees v) {c : Byte} {present : State → Bool}
    {body : State → State} (hpresent : present (s.holding v) = present s)
    (hbody : present s = true → (body (s.accepted c)).agreesReadable (body ((s.accepted c).holding v))) :
    (s.accept c present body).agreesReadable ((s.holding v).accept c present body) := by
  cases hb : s.busy with
  | true =>
    rw [accept_busy _ _ _ hb, accept_busy _ _ _ (show (s.holding v).busy = true from hb)]
    exact State.Agrees.readable (v := v) h.congr
  | false =>
    have hb' : (s.holding v).busy = false := hb
    cases hp : present s with
    | false =>
      rw [accept_missing _ _ hb hp, accept_missing _ _ hb' (hpresent.trans hp)]
      exact State.Agrees.readable (v := v) h.congr
    | true =>
      rw [accept_run _ _ hb hp, accept_run _ _ hb' (hpresent.trans hp)]
      exact hbody hp

/-! ## One instruction from both states -/

/-- Where the first outcome is a next state, the second is one that agrees with it. -/
def AnswersAlike (o o' : Host.Outcome State Fault Refusal) : Prop :=
  ∀ s', o = .next s' → ∃ t', o' = .next t' ∧ s'.agreesReadable t'

theorem answersAlike_next {s t : State} (h : s.agreesReadable t) : AnswersAlike (.next s) (.next t) := by
  rintro _ ⟨⟩
  exact ⟨t, rfl, h⟩

theorem answersAlike_refused (r : Refusal) (o : Host.Outcome State Fault Refusal) : AnswersAlike (.refused r) o :=
  fun _ h => nomatch h

section
variable {s : State} {v : Held} (h : s.Agrees v)
include h

theorem execIllegal_alike (c : Byte) : AnswersAlike (execIllegal c s) (execIllegal c (s.holding v)) :=
  answersAlike_next (accept_agrees h rfl fun _ => State.Agrees.readable (v := v) h.congr)

theorem beginDecode_agrees (c : Byte) :
    (s.accepted c).beginDecode.agreesReadable ((s.accepted c).holding v).beginDecode :=
  State.Agrees.readable (v := v) (h.congr (hrx := Nat.zero_le _))

theorem execCommandCode_alike (hs : s.mem.wf = true) (hv : v.mem.wf = true) (c : Byte) :
    AnswersAlike (execCommandCode c s) (execCommandCode c (s.holding v)) := by
  have hacc : ∀ k, (s.accepted k).Agrees v := fun k => h.congr
  rw [execCommandCode, execCommandCode]
  cases commandOf c with
  | none => exact execIllegal_alike h c
  | some k =>
    cases k with
    | csum => exact answersAlike_next (accept_agrees h h.csumPresent_eq (csumBody_agrees (hacc _)))
    | encDs2 => exact answersAlike_next (accept_agrees h h.ds2Present_eq (encDs2Body_agrees (hacc _) hs hv))
    | encKwp => exact answersAlike_next (accept_agrees h h.kwpPresent_eq (encKwpBody_agrees (hacc _) hs hv))
    | decDs2 => exact answersAlike_next (accept_agrees h rfl fun _ => beginDecode_agrees h _)
    | decKwp => exact answersAlike_next (accept_agrees h rfl fun _ => beginDecode_agrees h _)
    | xactDs2 => exact answersAlike_next (accept_agrees h h.ds2Present_eq (xactDs2Body_agrees (hacc _) hs hv))
    | xactKwp => exact answersAlike_next (accept_agrees h h.kwpPresent_eq (xactKwpBody_agrees (hacc _) hs hv))

theorem performWrite_alike (hs : s.mem.wf = true) (hv : v.mem.wf = true) {l : Sys2Proof.Loc}
    (hw : locWritable l = true) (b : Byte) : AnswersAlike (performWrite l b s) (performWrite l b (s.holding v)) := by
  obtain rfl | rfl | rfl | rfl | ⟨i, rfl⟩ := locWritable_cases hw
  · exact execCommandCode_alike h hs hv b
  · exact answersAlike_next (h.setReqTarget b).readable
  · exact answersAlike_next (h.setReqSource b).readable
  · exact answersAlike_next (h.setReqLen b).readable
  · exact answersAlike_next (h.setReqPayload hs hv i b).readable

theorem execHwr_alike (hs : s.mem.wf = true) (hv : v.mem.wf = true) (a : HostAddr) (d : Half) :
    AnswersAlike (execHwr a d s) (execHwr a d (s.holding v)) := by
  obtain ⟨f, hfault⟩ | ⟨l, _, hw, _, hperform⟩ := execHwr_cases s a d
  · rw [hfault s rfl, hfault (s.holding v) rfl]
    exact answersAlike_next (State.Agrees.readable (v := v) h.congr)
  · rw [hperform s rfl, hperform (s.holding v) rfl]
    exact performWrite_alike h hs hv hw (lowByte d)

/-- Where the Host gets a value (R59, R60), it gets the same. -/
theorem readLoc_holding {l : Sys2Proof.Loc} (hf : s.readFault l = none) : (s.holding v).readLoc l = s.readLoc l := by
  cases l with
  | reg r =>
    cases r
    case reqTarget => exact congrArg zext16 (h.target (by simpa [State.readFault] using hf))
    case reqSource => exact congrArg zext16 (h.source (by simpa [State.readFault] using hf))
    case reqLen => exact congrArg zext16 (h.len (by simpa [State.readFault] using hf))
    all_goals rfl
  | reqPayload i => exact congrArg zext16 (h.payload i i.isLt (by simpa [State.readFault] using hf))
  | txFrame i => exact congrArg zext16 (h.tx i (by simpa [State.readFault] using hf))
  | rxFrame i => exact congrArg zext16 (h.rx i (by simpa [State.readFault] using hf))

theorem hostRead_holding (a : HostAddr) : (s.holding v).hostRead a = s.hostRead a := by
  have hfault : ∀ l, (s.holding v).readFault l = s.readFault l := fun _ => rfl
  simp only [State.hostRead, hfault]
  cases locOf a with
  | none => rfl
  | some l =>
    cases hf : s.readFault l with
    | none => simp only [hf, readLoc_holding h hf]
    | some f => simp only [hf]

theorem execHrd_alike (a : HostAddr) : AnswersAlike (execHrd a s) (execHrd a (s.holding v)) := by
  rw [execHrd, execHrd, hostRead_holding h a]
  cases s.hostRead a <;> exact answersAlike_next (State.Agrees.readable (v := v) h.congr)

theorem exec_alike (hs : s.mem.wf = true) (hv : v.mem.wf = true) (i : Instr) :
    AnswersAlike (exec i s) (exec i (s.holding v)) := by
  have hcommand := execCommandCode_alike h hs hv
  cases i with
  | csum => exact hcommand 0x01
  | encDs2 => exact hcommand 0x02
  | encKwp => exact hcommand 0x03
  | decDs2 => exact hcommand 0x04
  | decKwp => exact hcommand 0x05
  | xactDs2 => exact hcommand 0x06
  | xactKwp => exact hcommand 0x07
  | illegal c => exact execIllegal_alike h c
  | hwr a d => exact execHwr_alike h hs hv a d
  | hrd a => exact execHrd_alike h a

theorem afterPoll_agrees : s.afterPoll.agreesReadable (s.holding v).afterPoll := by
  have hdata : (s.holding v).hostData = s.hostData := rfl
  simp only [State.afterPoll, hdata]
  split <;> exact State.Agrees.readable (v := v) h.congr

/-- The Host's place: the same statement of its program is next in both states. -/
theorem hostTurn_alike (hs : s.mem.wf = true) (hv : v.mem.wf = true) :
    AnswersAlike (hostTurn s) (hostTurn (s.holding v)) := by
  have haction : (s.holding v).hostAction = s.hostAction := rfl
  rw [hostTurn, hostTurn, haction]
  cases s.hostAction with
  | nothing => exact answersAlike_next h.readable
  | malformed => exact answersAlike_refused _ _
  | run i =>
    have hpop : (s.holding v).popProgram = s.popProgram.holding v := rfl
    rw [hpop]
    exact exec_alike (s := s.popProgram) h.congr hs hv i
  | poll =>
    have hread : ∀ w : State, exec (.hrd 0x001) w = .next { w with hostData := some (zext16 w.phase.code) } :=
      fun _ => execHrd_reg (r := .state) rfl
    simp only [hread]
    exact answersAlike_next (afterPoll_agrees (s := { s with hostData := some (zext16 s.phase.code) }) h.congr)

end

/-! ## The Engine's step from both states -/

section
variable {u : State} {v : Held} (h : u.Agrees v) (hs : u.mem.wf = true) (hv : v.mem.wf = true)
  (hn : u.rxCount.toNat < 260)
include h hs hv hn

/-- DecStepDS2 (R103) reads nothing but the Line's answer, RX_COUNT, DEC_NEED and DEC_ACC. -/
theorem decStepDs2_holding :
    ∃ w, (u.holding v).decStepDs2 = (u.decStepDs2.1, u.decStepDs2.2.holding w) ∧ u.decStepDs2.2.Agrees w := by
  cases ha : u.rxAnswer with
  | timeout =>
    rw [decStepDs2_timeout ha, decStepDs2_timeout (show (u.holding v).rxAnswer = .timeout from ha)]
    exact ⟨v, rfl, h.congr⟩
  | byte r =>
    rw [decStepDs2_byte ha, decStepDs2_byte (show (u.holding v).rxAnswer = .byte r from ha)]
    have hcount : (u.holding v).rxConsume.rxCount = u.rxConsume.rxCount := rfl
    have hstored := State.Agrees.storeRx (s := u.rxConsume) h.congr hs hv hn r
    simp only [State.ds2Byte, hcount]
    split_ifs <;> exact ⟨_, rfl, hstored.congr⟩

/-- DecStepKWP (R123) reads nothing but the Line's answer, RX_COUNT, DEC_NEED and DEC_ACC. -/
theorem decStepKwp_holding :
    ∃ w, (u.holding v).decStepKwp = (u.decStepKwp.1, u.decStepKwp.2.holding w) ∧ u.decStepKwp.2.Agrees w := by
  cases ha : u.rxAnswer with
  | timeout =>
    rw [decStepKwp_timeout ha, decStepKwp_timeout (show (u.holding v).rxAnswer = .timeout from ha)]
    exact ⟨v, rfl, h.congr⟩
  | byte r =>
    rw [decStepKwp_byte ha, decStepKwp_byte (show (u.holding v).rxAnswer = .byte r from ha)]
    have hcount : (u.holding v).rxConsume.rxCount = u.rxConsume.rxCount := rfl
    have hstored := State.Agrees.storeRx (s := u.rxConsume) h.congr hs hv hn r
    simp only [State.kwpByte, hcount]
    split_ifs <;> exact ⟨_, rfl, hstored.congr⟩

end

section
variable {t : State} {v : Held} (h : t.Agrees v) {r : Verdict}
include h

theorem rxByte_holding {i : Nat} (hi : i < t.rxCount.toNat) : (t.holding v).rxByte i = t.rxByte i := h.rx i hi

theorem txByte_holding {i : Nat} (hi : i < t.txLen.toNat) : (t.holding v).txByte i = t.txByte i := h.tx i hi

theorem decDs2Finish_agrees (hok : r = .ok → 3 ≤ t.rxCount.toNat) :
    (State.decDs2Finish r t).agreesReadable (State.decDs2Finish r (t.holding v)) := by
  cases r
  case ok =>
    have hlen : (t.holding v).rxByte 1 = t.rxByte 1 := rxByte_holding h (Nat.lt_of_lt_of_le (by decide) (hok rfl))
    simp only [State.decDs2Finish, hlen]
    exact State.Agrees.readable (v := v) h.congr
  all_goals exact State.Agrees.readable (v := v) h.congr

theorem decKwpFinish_agrees (hok : r = .ok → 5 ≤ t.rxCount.toNat) :
    (State.decKwpFinish r t).agreesReadable (State.decKwpFinish r (t.holding v)) := by
  cases r
  case ok =>
    have hlen : (t.holding v).rxByte 3 = t.rxByte 3 := rxByte_holding h (Nat.lt_of_lt_of_le (by decide) (hok rfl))
    simp only [State.decKwpFinish, hlen]
    exact State.Agrees.readable (v := v) h.congr
  all_goals exact State.Agrees.readable (v := v) h.congr

/-- An echo is not looked at (R144). -/
theorem echoFinish_agrees : (State.echoFinish r t).agreesReadable (State.echoFinish r (t.holding v)) := by
  cases r
  case ok => exact State.Agrees.readable (v := v) (h.congr (hrx := Nat.zero_le _))
  all_goals exact State.Agrees.readable (v := v) h.congr

/-- ReplyDS2 (R149 to R153) reads three bytes of the frame it got and one of the frame it sent. -/
theorem replyDs2_agrees (hrx : 3 ≤ t.rxCount.toNat) (htx : 3 ≤ t.txLen.toNat) :
    t.replyDs2.agreesReadable (t.holding v).replyDs2 := by
  have hsent : (t.holding v).txByte 0 = t.txByte 0 := txByte_holding h (Nat.lt_of_lt_of_le (by decide) htx)
  have hgot : ∀ i, i < 3 → (t.holding v).rxByte i = t.rxByte i := fun i hi =>
    rxByte_holding h (Nat.lt_of_lt_of_le hi hrx)
  simp only [State.replyDs2, hsent, hgot 0 (by decide), hgot 1 (by decide), hgot 2 (by decide)]
  split_ifs <;> exact State.Agrees.readable (v := v) h.congr

theorem replyDs2Finish_agrees (hok : r = .ok → 3 ≤ t.rxCount.toNat) (htx : 3 ≤ t.txLen.toNat) :
    (State.replyDs2Finish r t).agreesReadable (State.replyDs2Finish r (t.holding v)) := by
  cases r
  case ok => exact replyDs2_agrees (t := { t with detail := some .ok }) h.congr (hok rfl) htx
  all_goals exact State.Agrees.readable (v := v) h.congr

theorem replyKwpFinish_agrees (hok : r = .ok → 5 ≤ t.rxCount.toNat) :
    (State.replyKwpFinish r t).agreesReadable (State.replyKwpFinish r (t.holding v)) := by
  cases r
  case ok =>
    have hlen : (t.holding v).rxByte 3 = t.rxByte 3 := rxByte_holding h (Nat.lt_of_lt_of_le (by decide) (hok rfl))
    have hlen' : State.rxByte { t.holding v with detail := some .ok } 3 = t.rxByte 3 := hlen
    simp only [State.replyKwpFinish, State.replyKwp, hlen']
    exact State.Agrees.readable (v := v) h.congr
  all_goals exact State.Agrees.readable (v := v) h.congr

end

/-- One Engine step of a phase: what the decoder's steps leave agrees, and so does what the ending makes of it. -/
theorem phaseStep_agrees {u : State} {v : Held} {dec : State → Option Verdict × State} {fin : Verdict → State → State}
    (hdec : ∃ w, dec (u.holding v) = ((dec u).1, (dec u).2.holding w) ∧ (dec u).2.Agrees w)
    (hfin : ∀ r w, (dec u).1 = some r → (dec u).2.Agrees w →
      (fin r (dec u).2).agreesReadable (fin r ((dec u).2.holding w))) :
    (phaseStep (dec u) fin).agreesReadable (phaseStep (dec (u.holding v)) fin) := by
  obtain ⟨w, hsame, hw⟩ := hdec
  rw [hsame]
  unfold phaseStep
  cases hr : (dec u).1 with
  | none => exact hw.readable
  | some r => exact hfin r w hr hw

theorem State.PhaseRun.runs {s : State} {dec : State → Option Verdict × State} {fin : Verdict → State → State}
    (h : s.PhaseRun dec fin) : s.Runs dec fin := by
  cases h with
  | decDs2 hp hc => exact runs_decDs2 hp hc
  | decKwp hp hc => exact runs_decKwp hp hc
  | echoDs2 hp hc => exact runs_echoDs2 hp hc
  | echoKwp hp hc => exact runs_echoKwp hp hc
  | replyDs2 hp hc => exact runs_replyDs2 hp hc
  | replyKwp hp hc => exact runs_replyKwp hp hc

theorem rxCount_lt_of_engineStep {s t : State} (h : engineStep s = .next t) : s.rxCount.toNat < 260 := by
  by_contra hfull
  rw [engineStep, if_pos (show Config.frameBufSize ≤ s.rxCount.toNat from Nat.le_of_not_lt hfull)] at h
  cases h

section
variable {u : State} (hu : u.Inv) (hb : u.busy = true)
include hu hb

/-- A DS2 frame that is whole has three bytes at least (R106, R108). -/
theorem decStepDs2_ok_count (hc : u.cmd = 0x04 ∨ u.cmd = 0x06) {r : Verdict} (hr : u.decStepDs2.1 = some r)
    (hok : r = .ok) : 3 ≤ u.decStepDs2.2.rxCount.toNat := by
  obtain ⟨hout, _⟩ := decStepDs2_stepOut hu.buffers (hu.ds2 hb hc)
  rw [hr, hok] at hout
  exact hout.fails.2

/-- A KWP2000 frame that is whole has five bytes at least (R126). -/
theorem decStepKwp_ok_count (hc : u.cmd = 0x05 ∨ u.cmd = 0x07) {r : Verdict} (hr : u.decStepKwp.1 = some r)
    (hok : r = .ok) : 5 ≤ u.decStepKwp.2.rxCount.toNat := by
  obtain ⟨_, hcount⟩ := decStepKwp_stepOut hu.buffers (hu.kwp hb hc)
  rw [hcount (hok ▸ hr), toNat_zext16_add]
  exact Nat.le_add_left _ _

/-- The request that was sent is still in TX_FRAME when the reply is whole. -/
theorem decStepDs2_sent (hc : u.cmd = 0x04 ∨ u.cmd = 0x06) (hp : u.phase = .awaitingReply) :
    3 ≤ u.decStepDs2.2.txLen.toNat := by
  obtain ⟨hout, _⟩ := decStepDs2_stepOut hu.buffers (hu.ds2 hb hc)
  exact (hout.sent hu (.inr hp)).1

theorem engineStep_alike {v : Held} (h : u.Agrees v) (hv : v.mem.wf = true) :
    AnswersAlike (engineStep u) (engineStep (u.holding v)) := by
  intro s' hs'
  have hn := rxCount_lt_of_engineStep hs'
  have hds2 := decStepDs2_holding h hu.memWf hv hn
  have hkwp := decStepKwp_holding h hu.memWf hv hn
  obtain ⟨dec, fin, hrun, rfl⟩ := engineStep_cases hb hs'
  refine ⟨_, hrun.runs.2 (u.holding v) rfl rfl hn, ?_⟩
  cases hrun with
  | decDs2 _ hc =>
    exact phaseStep_agrees hds2 fun _ _ hr hw => decDs2Finish_agrees hw (decStepDs2_ok_count hu hb (.inl hc) hr)
  | decKwp _ hc =>
    exact phaseStep_agrees hkwp fun _ _ hr hw => decKwpFinish_agrees hw (decStepKwp_ok_count hu hb (.inl hc) hr)
  | echoDs2 => exact phaseStep_agrees hds2 fun _ _ _ hw => echoFinish_agrees hw
  | echoKwp => exact phaseStep_agrees hkwp fun _ _ _ hw => echoFinish_agrees hw
  | replyDs2 hp hc =>
    exact phaseStep_agrees hds2 fun _ _ hr hw =>
      replyDs2Finish_agrees hw (decStepDs2_ok_count hu hb (.inr hc) hr) (decStepDs2_sent hu hb (.inr hc) hp)
  | replyKwp _ hc =>
    exact phaseStep_agrees hkwp fun _ _ hr hw => replyKwpFinish_agrees hw (decStepKwp_ok_count hu hb (.inr hc) hr)

end

/-! ## Every step -/

/-- The Engine's place: a step while BUSY, and none otherwise. -/
theorem engineTurn_alike {s : State} {v : Held} (hs : s.Inv) (h : s.Agrees v) (hv : v.mem.wf = true) :
    AnswersAlike (engineTurn s) (engineTurn (s.holding v)) := by
  have hbusy : (s.holding v).busy = s.busy := rfl
  rw [engineTurn, engineTurn, hbusy]
  split
  next hb => exact engineStep_alike hs hb h hv
  next => exact answersAlike_next h.readable

/-- A reset leaves none of the values that may differ (R200). -/
theorem applyReset_agrees (s : State) (v : Held) : s.applyReset.agreesReadable (s.holding v).applyReset :=
  ⟨rfl, fun _ => rfl, fun _ => rfl, fun _ => rfl, fun _ _ _ => rfl, fun _ _ => rfl, fun _ _ => rfl⟩

/-- Settles O45, by whose place the step is: the same one's in both states. -/
theorem unreadableBytesNeverMatter : Obligations.UnreadableBytesNeverMatter := by
  intro s t s' hs ht hagree
  obtain ⟨v, rfl, h⟩ := agreesReadable_iff.1 hagree
  have hturn : s.takeTurn.Agrees v := h.congr
  have hsame : (s.holding v).nextTurn = s.nextTurn := rfl
  revert s'
  change AnswersAlike (step s) (step (s.holding v))
  rw [step, step, hsame]
  cases s.nextTurn with
  | host => exact hostTurn_alike hturn hs.memWf ht.memWf
  | engine => exact engineTurn_alike (s := s.takeTurn) (hs.env ..) hturn ht.memWf
  | reset => exact answersAlike_next (applyReset_agrees s.takeTurn v)

end Sys2Proof.Machine
end

section
/-! PROOFS. The encodings (spec/30_encoding.md): the command word and the host access word in both directions, the
statements of a host program as words, and what the Host's place does with its program's next entry. -/

namespace Sys2Proof

/-! ## Command words (R70 to R72) -/

theorem reservedCode_iff {c : Byte} : reservedCode c = true ↔ c.toNat = 0x00 ∨ 0x08 ≤ c.toNat := by
  rw [reservedCode, Bool.or_eq_true, beq_iff_eq, decide_eq_true_eq, ← BitVec.toNat_inj]
  rfl

theorem reservedCode_code (k : Command) : reservedCode k.code = false := by cases k <;> rfl

/-- R71, R72: the codes that select no command are the reserved ones. -/
theorem commandOf_eq_none_iff {c : Byte} : commandOf c = none ↔ reservedCode c = true := by
  constructor
  · intro h
    rw [reservedCode_iff]
    unfold commandOf at h
    split_ifs at h
    bv_omega
  · intro h
    cases hk : commandOf c with
    | none => rfl
    | some k =>
      rw [Machine.commandOf_eq_some hk, reservedCode_code] at h
      cases h

theorem decodeCmd8_reserved {c : Byte} (h : reservedCode c = true) : decodeCmd8 c = .illegal c := by
  rw [decodeCmd8, commandOf_eq_none_iff.2 h]

/-- A command word is the word of the instruction it stands for, and that instruction is well-formed. -/
theorem encode_decodeCmd8 (c : Byte) : encode (decodeCmd8 c) = .cmd8 c ∧ (decodeCmd8 c).wf = true := by
  cases h : commandOf c with
  | none =>
    have hc := commandOf_eq_none_iff.1 h
    rw [decodeCmd8_reserved hc]
    exact ⟨rfl, hc⟩
  | some k =>
    rw [Machine.commandOf_eq_some h]
    cases k <;> exact ⟨rfl, rfl⟩

/-! ## Host access words (R73) -/

section
variable (w : BitVec 32)

theorem toNat_haccW : (haccW w).toNat = w.toNat / 2 ^ 31 % 2 := by
  simp only [haccW, BitVec.extractLsb'_toNat, Nat.shiftRight_eq_div_pow, Nat.pow_one]

theorem toNat_haccZero : (haccZero w).toNat = w.toNat / 2 ^ 28 % 2 ^ 3 := by
  simp only [haccZero, BitVec.extractLsb'_toNat, Nat.shiftRight_eq_div_pow]

theorem toNat_haccAddr : (haccAddr w).toNat = w.toNat / 2 ^ 16 % 2 ^ 12 := by
  simp only [haccAddr, BitVec.extractLsb'_toNat, Nat.shiftRight_eq_div_pow]

theorem toNat_haccData : (haccData w).toNat = w.toNat % 2 ^ 16 := by
  simp only [haccData, BitVec.extractLsb'_toNat, Nat.shiftRight_zero]

end

section
variable {w : BitVec 32}

/-- Bits 31, 30:28, 27:16 and 15:0 are the whole word: no field is dropped. -/
theorem haccWord_fields (hz : haccZero w = 0) : haccWord (haccW w) (haccAddr w) (haccData w) = w := by
  have hw := w.isLt
  have hzero : w.toNat / 2 ^ 28 % 2 ^ 3 = 0 := by rw [← toNat_haccZero, hz]; rfl
  rw [← BitVec.toNat_inj, toNat_haccWord, toNat_haccW, toNat_haccAddr, toNat_haccData]
  omega

theorem decodeHacc32_zeroField (hz : haccZero w ≠ 0) : decodeHacc32 w = .error .zeroField := by
  rw [decodeHacc32, if_pos hz]

theorem decodeHacc32_write (hz : haccZero w = 0) (hW : haccW w = 1) :
    decodeHacc32 w = .ok (.hwr (haccAddr w) (haccData w)) := by
  rw [decodeHacc32, if_neg (not_not.2 hz), if_pos hW]

theorem decodeHacc32_readData (hz : haccZero w = 0) (hW : haccW w = 0) (hd : haccData w ≠ 0) :
    decodeHacc32 w = .error .readData := by
  rw [decodeHacc32, if_neg (not_not.2 hz), hW, if_neg (by decide), if_pos hd]

theorem decodeHacc32_read (hz : haccZero w = 0) (hW : haccW w = 0) (hd : haccData w = 0) :
    decodeHacc32 w = .ok (.hrd (haccAddr w)) := by
  rw [decodeHacc32, if_neg (not_not.2 hz), hW, if_neg (by decide), if_neg (not_not.2 hd)]

/-- R73: the two kinds of word that are no malformed word. -/
theorem decodeHacc32_eq_ok {i : Instr} (h : decodeHacc32 w = .ok i) :
    haccZero w = 0 ∧
      ((haccW w = 1 ∧ i = .hwr (haccAddr w) (haccData w)) ∨
       (haccW w = 0 ∧ haccData w = 0 ∧ i = .hrd (haccAddr w))) := by
  by_cases hz : haccZero w = 0
  · refine ⟨hz, ?_⟩
    rcases BitVec.eq_zero_or_eq_one (haccW w) with hW | hW
    · by_cases hd : haccData w = 0
      · rw [decodeHacc32_read hz hW hd] at h
        exact .inr ⟨hW, hd, (Except.ok.inj h).symm⟩
      · rw [decodeHacc32_readData hz hW hd] at h
        cases h
    · rw [decodeHacc32_write hz hW] at h
      exact .inl ⟨hW, (Except.ok.inj h).symm⟩
  · rw [decodeHacc32_zeroField hz] at h
    cases h

/-- A word that is not malformed is the word of the access it stands for. -/
theorem encode_of_decodeHacc32 {i : Instr} (h : decodeHacc32 w = .ok i) :
    encode i = .hacc32 w ∧ i.wf = true := by
  obtain ⟨hz, ⟨hW, rfl⟩ | ⟨hW, hd, rfl⟩⟩ := decodeHacc32_eq_ok h
  · refine ⟨?_, rfl⟩
    rw [encode, ← hW, haccWord_fields hz]
  · refine ⟨?_, rfl⟩
    rw [encode, ← hW, ← hd, haccWord_fields hz]

/-! ### The classes of words by their fields, as shifts, masks and remainders of the whole word -/

theorem haccZero_eq_zero_iff : haccZero w = 0 ↔ (w >>> 28) &&& 7#32 = 0 := by
  have hmask : ((w >>> 28) &&& 7#32).toNat = w.toNat / 2 ^ 28 % 2 ^ 3 := by
    rw [BitVec.toNat_and, BitVec.toNat_ushiftRight, Nat.shiftRight_eq_div_pow]
    exact Nat.and_two_pow_sub_one_eq_mod _ 3
  rw [← BitVec.toNat_inj, ← BitVec.toNat_inj, toNat_haccZero, hmask]
  rfl

theorem toNat_haccW_eq_shift : (haccW w).toNat = (w >>> 31).toNat := by
  have hw := w.isLt
  rw [toNat_haccW, BitVec.toNat_ushiftRight, Nat.shiftRight_eq_div_pow]
  omega

theorem haccW_eq_zero_iff : haccW w = 0 ↔ w >>> 31 = 0 := by
  rw [← BitVec.toNat_inj, ← BitVec.toNat_inj, toNat_haccW_eq_shift]
  rfl

theorem haccW_eq_one_iff : haccW w = 1 ↔ w >>> 31 = 1 := by
  rw [← BitVec.toNat_inj, ← BitVec.toNat_inj, toNat_haccW_eq_shift]
  rfl

theorem haccData_eq_zero_iff : haccData w = 0 ↔ w.toNat % 2 ^ 16 = 0 := by
  rw [← BitVec.toNat_inj, toNat_haccData]
  rfl

theorem decodeHacc32_malformed (h : (w >>> 28) &&& 7#32 ≠ 0 ∨ (w >>> 31 = 0 ∧ w.toNat % 2 ^ 16 ≠ 0)) :
    ∃ e, decodeHacc32 w = .error e := by
  by_cases hz : haccZero w = 0
  · obtain hne | ⟨hW, hd⟩ := h
    · exact absurd (haccZero_eq_zero_iff.1 hz) hne
    · exact ⟨_, decodeHacc32_readData hz (haccW_eq_zero_iff.2 hW) (haccData_eq_zero_iff.not.2 hd)⟩
  · exact ⟨_, decodeHacc32_zeroField hz⟩

end

/-! ## Both formats -/

theorem decode_encode {i : Instr} (h : i.wf = true) : decode (encode i) = .ok i := by
  cases i with
  | csum | encDs2 | encKwp | decDs2 | decKwp | xactDs2 | xactKwp => rfl
  | illegal c => exact congrArg Except.ok (decodeCmd8_reserved h)
  | hwr a d => simp [encode, decode, decodeHacc32_write]
  | hrd a => simp [encode, decode, decodeHacc32_read]

/-- Settles O9: one direction by the instruction, the other by the word's format. -/
theorem decodeEncodeAgree : Obligations.DecodeEncodeAgree := by
  refine ⟨fun _ => decode_encode, fun w i h => ?_⟩
  cases w with
  | cmd8 c =>
    obtain rfl : decodeCmd8 c = i := Except.ok.inj h
    exact encode_decodeCmd8 c
  | hacc32 w => exact encode_of_decodeHacc32 h

/-- Settles O8: each word is the encoding of its instruction. -/
theorem writtenOutWordsDecode : Obligations.WrittenOutWordsDecode :=
  ⟨decode_encode (i := .csum) rfl, decode_encode (i := .xactDs2) rfl, decode_encode (i := .illegal 0x00) rfl,
    decode_encode (i := .illegal 0x08) rfl, decode_encode (i := .hwr 0x008 0x0032) rfl,
    decode_encode (i := .hrd 0x001) rfl⟩

/-! ## Statements as words (R83, R84) -/

theorem ldPayload_eq_map_range (a : Nat) (p : List Half) :
    ldPayload a p = (List.range p.length).map fun i =>
      .word (encode (.hwr (BitVec.ofNat 12 (a + i)) (p.getD i 0))) := by
  induction p generalizing a with
  | nil => rfl
  | cons b bs ih =>
    rw [ldPayload, ih, List.length_cons, List.range_succ_eq_map, List.map_cons, List.map_map]
    simp [encode, Function.comp_def, Nat.add_assoc, Nat.add_comm 1]

end Sys2Proof

namespace Sys2Proof.Machine

/-- No instruction, well-formed or not, is encoded as a malformed word. -/
theorem stmtOk_encode (i : Instr) : stmtOk (.word (encode i)) = true := by
  cases i with
  | csum | encDs2 | encKwp | decDs2 | decKwp | xactDs2 | xactKwp | illegal c => rfl
  | hwr a d => exact Laws.Encoded.hwr a d
  | hrd a => exact Laws.Encoded.hrd a

@[simp] theorem stmtOk_wrStmt (l : Loc) (v : Half) : stmtOk (wrStmt l v) = true := stmtOk_encode (.hwr l.addr v)

@[simp] theorem stmtOk_rdStmt (l : Loc) : stmtOk (rdStmt l) = true := stmtOk_encode (.hrd l.addr)

@[simp] theorem programOk_cons (x : HostStmt) (p : List HostStmt) : programOk (x :: p) = (stmtOk x && programOk p) :=
  rfl

@[simp] theorem programOk_nil : programOk [] = true := rfl

@[simp] theorem programOk_ldPayload (a : Nat) (p : List Half) : programOk (ldPayload a p) = true := by
  induction p generalizing a with
  | nil => rfl
  | cons b bs ih => exact Bool.and_eq_true_iff.2 ⟨stmtOk_encode (.hwr (BitVec.ofNat 12 a) b), ih (a + 1)⟩

theorem programOk_expand (x : AsmStmt) : programOk x.expand = true := by
  cases x with
  | wr | rd | cmd => simp [AsmStmt.expand]
  | ldreq t src p => cases src <;> simp [AsmStmt.expand]
  | poll => rfl

/-- Settles O11: the words by the expansion's definition, the payload and the whole program by their lists. -/
theorem statementsExpandToTheirAccesses : Obligations.StatementsExpandToTheirAccesses := by
  refine ⟨fun _ _ => rfl, fun _ => rfl, fun _ => rfl, fun t src p _ => ?_, fun p => ?_⟩
  · rw [← ldPayload_eq_map_range 0x100 p]
    cases src <;> rfl
  · rw [assemble, programOk, List.all_flatten, List.all_map]
    exact List.all_eq_true.2 fun x _ => programOk_expand x

/-! ## The Host's place (R68, R73, R84) -/

section
variable {s : State} {rest : List HostStmt}

theorem step_host (ht : s.nextTurn = .host) : step s = hostTurn s.takeTurn := by
  rw [step, ht]

theorem hostTurn_word {w : FetchWord} {i : Instr} (hp : s.program = .word w :: rest)
    (hok : programOk s.program = true) (hd : decode w = .ok i) :
    hostTurn s = exec i { s with program := rest } := by
  have haction : s.hostAction = .run i := by
    rw [State.hostAction, if_pos hok, hp]
    simp only [hd]
  simp only [hostTurn, haction, State.popProgram, hp, List.tail_cons]

theorem hostTurn_poll (hp : s.program = .poll :: rest) (hok : programOk rest = true) :
    hostTurn s = .next (State.afterPoll { s with hostData := some (zext16 s.phase.code) }) := by
  have haction : s.hostAction = .poll := by
    rw [State.hostAction, if_pos (by rw [hp]; exact hok), hp]
  have hread : exec (.hrd 0x001) s = .next { s with hostData := some (zext16 s.phase.code) } :=
    execHrd_reg (r := .state) rfl
  rw [hostTurn, haction]
  simp only [hread]

theorem hostTurn_malformed (h : programOk s.program = false) : hostTurn s = .refused .malformedProgram := by
  have haction : s.hostAction = .malformed := by
    rw [State.hostAction, h]
    rfl
  rw [hostTurn, haction]

/-- STATE reads 0x04 or 0x05 exactly when it is COMPLETE or FAILED (R23, R37). -/
theorem done_iff_code : s.done = true ↔ zext16 s.phase.code = 0x0004 ∨ zext16 s.phase.code = 0x0005 := by
  rw [State.done]
  cases s.phase <;> decide

end

/-- Settles O4: the place is taken first, and that leaves the program as it is. -/
theorem stepRunsDecodedInstruction : Obligations.StepRunsDecodedInstruction :=
  fun s _ _ _ ht hp hok hd => (step_host ht).trans (hostTurn_word (s := s.takeTurn) hp hok hd)

/-- Settles O6: the round's read of STATE, and then whether the value read ends the loop. -/
theorem pollRepeatsUntilDone : Obligations.PollRepeatsUntilDone := by
  intro s rest ht hp hok
  have hround := (step_host ht).trans (hostTurn_poll (s := s.takeTurn) hp hok)
  constructor
  · intro hdone
    rw [hround, State.afterPoll, if_pos (by simpa using done_iff_code.1 hdone), State.popProgram]
    simp [hp]
  · intro hdone
    have hcode := done_iff_code.not.1 (Bool.eq_false_iff.1 hdone)
    rw [hround, State.afterPoll, if_neg (by simpa using hcode)]
    rfl

/-! ## Malformed programs (R73) -/

/-- R73: a program that holds a malformed word, wherever it stands, is no well-formed program. -/
theorem programOk_malformed {p : List HostStmt} {w : FetchWord} {e : DecodeError} (hmem : HostStmt.word w ∈ p)
    (he : decode w = .error e) : programOk p = false := by
  refine List.all_eq_false.2 ⟨_, hmem, ?_⟩
  rw [stmtOk, he]
  exact Bool.false_ne_true

/-- Settles O7: each class of words is the decoder's case for it, and a program is refused as a whole. -/
theorem hostAccessWordFields : Obligations.HostAccessWordFields := by
  refine ⟨fun w hz hW => ?_, fun w hz hW hd => ?_, fun w hbad s ht hmem => ?_⟩
  · exact ⟨_, _, decodeHacc32_write (haccZero_eq_zero_iff.2 hz) (haccW_eq_one_iff.2 hW), toNat_haccAddr w,
      toNat_haccData w⟩
  · exact ⟨_, decodeHacc32_read (haccZero_eq_zero_iff.2 hz) (haccW_eq_zero_iff.2 hW) (haccData_eq_zero_iff.2 hd),
      toNat_haccAddr w⟩
  · obtain ⟨e, he⟩ := decodeHacc32_malformed hbad
    exact (step_host ht).trans (hostTurn_malformed (s := s.takeTurn) (programOk_malformed hmem he))

/-! ## The reserved codes (R72) -/

/-- Settles O22: the accept with no operand to miss, and the write of CMD runs the same command. -/
theorem reservedCodeFailsAtOnce : Obligations.ReservedCodeFailsAtOnce := by
  intro s c hb hc
  have hreserved : reservedCode c = true := reservedCode_iff.2 (hc.imp_right And.left)
  constructor
  · exact congrArg Host.Outcome.next (accept_run c _ hb rfl)
  · rw [← decodeCmd8_reserved hreserved]
    exact hostWriteCmdRunsCommand s c

end Sys2Proof.Machine
end

section
/-! PROOFS. The checksum (spec/40_checksum.md): its laws (R91), the check of a received frame and the flip of one of
its bits (R93, R94), the CSUM command (R92), and the decode of a whole frame. -/

namespace Sys2Proof.Machine

/-! ## The laws of the checksum (R91) -/

theorem xorFold_append (s t : List Byte) : xorFold (s ++ t) = xorFold s ^^^ xorFold t :=
  List.foldl_append.trans (foldl_xor (xorFold s) t)

/-- R91: the order of the bytes does not matter. -/
theorem xorFold_perm {s t : List Byte} (h : s.Perm t) : xorFold s = xorFold t := h.foldl_eq 0x00

theorem xorFold_concat_xorFold (s : List Byte) : xorFold (s ++ [xorFold s]) = 0x00 := by
  rw [xorFold_concat, BitVec.xor_self]
  rfl

/-- One more of a thing changes the parity of their number. -/
theorem odd_succ (n : Nat) : ((n + 1) % 2 == 1) = !(n % 2 == 1) := by
  rcases Nat.mod_two_eq_zero_or_one n with h | h <;> simp [Nat.add_mod, h]

/-- R91: bit `k` of the checksum is the parity of bit `k` over the bytes. -/
theorem getLsbD_xorFold (k : Nat) (s : List Byte) :
    (xorFold s).getLsbD k = ((s.filter fun b => b.getLsbD k).length % 2 == 1) := by
  induction s with
  | nil => simp
  | cons b s ih =>
    rw [xorFold_cons, BitVec.getLsbD_xor, ih, List.filter_cons]
    cases b.getLsbD k with
    | false => simp
    | true => rw [if_pos rfl, List.length_cons, odd_succ, Bool.true_xor]

/-- Settles O12: each law is a lemma of its own. -/
theorem checksumLaws : Obligations.ChecksumLaws :=
  ⟨xorFold_nil, xorFold_append, fun _ _ => xorFold_perm, xorFold_concat_xorFold, fun s k _ => getLsbD_xorFold k s⟩

/-- Settles O13: the fold of body and byte is the exclusive-or of the two, and it is 0 exactly when they are equal. -/
theorem checksumVerificationForms : Obligations.ChecksumVerificationForms := by
  intro f c
  rw [xorFold_concat]
  exact (xor_eq_zero _ _).symm

/-! ## CSUM (R92) -/

theorem payloadWritten_iff {s : State} :
    s.payloadWritten = true ↔ ∀ i, i < s.reqLen.toNat → s.written.has (reqBase + i) = true := by
  simp only [State.payloadWritten, List.all_eq_true, List.mem_range]

/-- R140: CSUM's operands. -/
theorem csumPresent_iff {s : State} :
    s.csumPresent = true ↔
      s.written.has 0x00A = true ∧ ∀ i, i < s.reqLen.toNat → s.written.has (0x100 + i) = true := by
  rw [State.csumPresent, Bool.and_eq_true, payloadWritten_iff]
  rfl

/-- Settles O16: the accept with its operands present and without. -/
theorem csumResultAndFrame : Obligations.CsumResultAndFrame := by
  refine ⟨rfl, fun s hb => ⟨fun hwritten => ?_, fun hmissing => ?_⟩⟩
  · exact congrArg Host.Outcome.next (accept_run 0x01 State.csumBody hb (csumPresent_iff.2 hwritten))
  · have habsent : s.csumPresent = false := Bool.eq_false_iff.2 (csumPresent_iff.not.2 hmissing)
    exact congrArg Host.Outcome.next (accept_missing 0x01 State.csumBody hb habsent)

/-! ## A received frame's checksum (R93), and the flip of one of its bits (R94) -/

/-- R94: an exclusive-or into one byte is the same exclusive-or into the checksum. -/
theorem xorFold_set_xor (b : Byte) : ∀ (f : List Byte) (j : Nat), j < f.length →
    xorFold (f.set j (f.getD j 0 ^^^ b)) = xorFold f ^^^ b
  | c :: f, 0, _ => by
    rw [List.set_cons_zero, List.getD_cons_zero, xorFold_cons, xorFold_cons, BitVec.xor_assoc, BitVec.xor_comm b,
      BitVec.xor_assoc]
  | c :: f, j + 1, hj => by
    rw [List.set_cons_succ, List.getD_cons_succ, xorFold_cons, xorFold_cons,
      xorFold_set_xor b f j (Nat.lt_of_succ_lt_succ hj), BitVec.xor_assoc]

theorem getD_set_ne {f : List Byte} {i j : Nat} (b : Byte) (h : j ≠ i) : (f.set j b).getD i 0 = f.getD i 0 := by
  rw [List.getD_eq_getElem?_getD, List.getD_eq_getElem?_getD, List.getElem?_set_ne h]

theorem oneBit_ne_zero {k : Nat} (hk : k < 8) : 1#8 <<< k ≠ 0x00 := by
  decide +revert

/-- R94: a valid frame with one bit flipped does not fold to zero. -/
theorem xorFold_flip_ne_zero {f : List Byte} {j k : Nat} (hvalid : xorFold f.dropLast = f.getLastD 0)
    (hj : j < f.length) (hk : k < 8) : xorFold (f.set j (f.getD j 0 ^^^ (1#8 <<< k))) ≠ 0x00 := by
  have hzero : xorFold f = 0x00 := (xorFold_dropLast (List.ne_nil_of_length_pos (by omega))).2 hvalid
  rw [xorFold_set_xor _ f j hj, hzero]
  simpa using oneBit_ne_zero hk

/-! ## The decode of a whole frame -/

/-- R39: before a frame's first byte nothing is folded. -/
theorem State.Inv.decAcc_frameStart {s : State} (h : s.Inv) (hc : s.rxCount = 0) : s.decAcc = 0x00 := by
  rw [h.accFold, State.rxFrame, hc]
  rfl

/-- R40: the command that runs while BUSY is one of the four that read the Line. -/
theorem State.Inv.cmd_busy {s : State} (h : s.Inv) (hb : s.busy = true) :
    (s.cmd = 0x04 ∨ s.cmd = 0x06) ∨ (s.cmd = 0x05 ∨ s.cmd = 0x07) := by
  have hfit := h.command
  unfold State.commandFits at hfit
  cases hp : s.phase <;> simp only [State.busy, hp, Phase.busy, Bool.false_eq_true] at hb hfit
  case decoding => exact hfit.imp .inl .inl
  case awaitingEcho | awaitingReply => exact hfit.imp .inr .inr

/-- R38: before a frame's first byte DEC_NEED is not known. -/
theorem State.Inv.decNeed_frameStart {s : State} (h : s.Inv) (hb : s.busy = true) (hc : s.rxCount = 0) :
    s.decNeed = 0 := by
  rcases h.cmd_busy hb with hds2 | hkwp
  · exact (h.ds2 hb hds2).1 (by simp [hc])
  · exact (h.kwp hb hkwp).2.1 (by simp [hc])

section
variable {s : State} {f : List Byte} {rest : List RxAnswer} {sched : List Turn} (h : s.Inv)
  (hp : s.phase = .decoding) (hc : s.rxCount = 0) (hline : s.lineGives f rest)
  (hs : s.schedule = List.replicate f.length .engine ++ sched)
include h hp hc hline hs

/-- R107, R108: DEC_DS2 on a frame that arrives whole ends with its last byte, and the verdict is its checksum's. -/
theorem run_decDs2 (hcmd : s.cmd = 0x04) (h3 : 3 ≤ f.length) (hl : (f.getD 1 0).toNat = f.length) :
    Host.Core.run core f.length s = .next
      (State.decDs2Finish (if xorFold f = 0x00 then .ok else .checksumError) (s.fed (ds2Need f) f)) :=
  have hr := runs_decDs2 hp hcmd
  run_ds2_whole hr hc (h.decNeed_frameStart hr.1 hc) (h.decAcc_frameStart hc) hs hline le_rfl h3 hl

/-- R126: DEC_KWP on a frame that arrives whole ends with its last byte, and the verdict is its checksum's. -/
theorem run_decKwp (hcmd : s.cmd = 0x05) (h5 : 5 ≤ f.length) (h0 : f.getD 0 0 = Config.kwpHeader)
    (hl : (f.getD 3 0).toNat + 5 = f.length) :
    Host.Core.run core f.length s = .next
      (State.decKwpFinish (if xorFold f = 0x00 then .ok else .checksumError) (s.fed (kwpNeed f) f)) :=
  have hr := runs_decKwp hp hcmd
  run_kwp_whole hr hc (h.decNeed_frameStart hr.1 hc) (h.decAcc_frameStart hc) hs hline le_rfl h5 h0 hl

end

/-- Settles O55: the flipped frame has the framing bytes of the valid one, so it is decoded to its last byte, and there
its checksum is wrong. -/
theorem singleBitFlipDetected : Obligations.SingleBitFlipDetected := by
  intro s f j k rest sched h hp hc hvalid hj hk hframe hline hs
  have hbad := xorFold_flip_ne_zero hvalid hj hk
  generalize hg : f.set j (f.getD j 0 ^^^ (1#8 <<< k)) = g at hline hbad
  have hlen : g.length = f.length := by rw [← hg, List.length_set]
  have hkept : ∀ i, j ≠ i → g.getD i 0 = f.getD i 0 := fun i hi => hg ▸ getD_set_ne _ hi
  rw [← hlen] at hs hframe ⊢
  obtain ⟨hcmd, h3, hl, hj1⟩ | ⟨hcmd, h5, h0, hl, hj0, hj3⟩ := hframe
  · rw [← hkept 1 hj1] at hl
    refine ⟨_, run_decDs2 h hp hc hline hs hcmd h3 hl, ?_⟩
    rw [if_neg hbad]
    exact ⟨rfl, rfl⟩
  · rw [← hkept 0 hj0] at h0
    rw [← hkept 3 hj3] at hl
    refine ⟨_, run_decKwp h hp hc hline hs hcmd h5 h0 hl, ?_⟩
    rw [if_neg hbad]
    exact ⟨rfl, rfl⟩

end Sys2Proof.Machine
end

section
/-! PROOFS. The DS2 frame codec (spec/41_ds2_codec.md): the frame that is encoded (R101) and ENC_DS2 (R100), the steps
of the decoder (R102, R103), and the decode of a frame that arrives whole, is cut short or is no frame (R104 to
R110). -/

namespace Sys2Proof.Machine

/-! ## The encoded frame (R101) and ENC_DS2 (R100) -/

theorem getElem?_one_encodeDs2 (a : Byte) (p : List Byte) :
    (encodeDs2 a p)[1]? = some (BitVec.ofNat 8 (p.length + 3)) := rfl

theorem drop_two_encodeDs2 (a : Byte) (p : List Byte) :
    (encodeDs2 a p).drop 2 = p ++ [xorFold (a :: BitVec.ofNat 8 (p.length + 3) :: p)] := rfl

/-- R75: the length byte counts every byte of the frame. -/
theorem toNat_lengthByte {p : List Byte} (hp : p.length ≤ 252) :
    (BitVec.ofNat 8 (p.length + 3)).toNat = p.length + 3 := by
  rw [BitVec.toNat_ofNat]
  omega

/-- R75: byte 1 of an encoded frame is the frame's length. -/
theorem toNat_getD_one_encodeDs2 (a : Byte) {p : List Byte} (hp : p.length ≤ 252) :
    ((encodeDs2 a p).getD 1 0).toNat = p.length + 3 :=
  toNat_lengthByte hp

/-- Settles O14: the frame as EncodeDS2 builds it, and the length byte does not overflow. -/
theorem encodeDs2FrameShape : Obligations.EncodeDs2FrameShape := by
  intro a p hp
  refine ⟨length_encodeDs2 a p, rfl, ?_, ?_, ?_⟩
  · rw [getElem?_one_encodeDs2, length_encodeDs2, Option.map_some, toNat_lengthByte hp]
  · rw [drop_two_encodeDs2, List.dropLast_concat]
  · rw [encodeDs2, List.getLast?_concat, List.dropLast_concat]

theorem tooLong_iff {s : State} : s.tooLong = true ↔ 252 < s.reqLen.toNat := decide_eq_true_iff

/-- R140: ENC_DS2's operands. -/
theorem ds2Present_iff {s : State} :
    s.ds2Present = true ↔ s.written.has 0x00A = true ∧ (s.reqLen.toNat ≤ 252 → s.written.has 0x008 = true ∧
      ∀ i, i < s.reqLen.toNat → s.written.has (0x100 + i) = true) := by
  rw [State.ds2Present, Bool.and_eq_true, Bool.or_eq_true, Bool.and_eq_true, payloadWritten_iff, tooLong_iff,
    ← Nat.not_le, ← imp_iff_not_or]
  rfl

/-- The checksum byte of the request frame. -/
theorem getLastD_ds2Request (s : State) : s.ds2Request.getLastD 0x00 = s.ds2Request.getD (s.reqLen.toNat + 2) 0 := by
  rw [List.getLastD_eq_getLast?, List.getLast?_eq_getElem?, length_ds2Request, List.getD_eq_getElem?_getD]
  rfl

/-- R100: the body of ENC_DS2 with a payload that fits a frame. -/
theorem encDs2Body_fits {s : State} (h : s.reqLen.toNat ≤ 252) :
    s.encDs2Body = { s with
      phase := .complete, result := .ok, mem := s.mem.writeBytes txBase s.ds2Request,
      txLen := BitVec.ofNat 16 (s.reqLen.toNat + 3), csumOut := s.ds2Request.getD (s.reqLen.toNat + 2) 0 } := by
  rw [State.encDs2Body, if_neg (tooLong_iff.not.2 (Nat.not_lt.2 h)), State.storeTx, length_ds2Request,
    getLastD_ds2Request]
  rfl

/-- Settles O17: the accept with its operands present, and its body by whether the payload fits a frame; and the accept
with an operand missing. -/
theorem encDs2ResultAndFrame : Obligations.EncDs2ResultAndFrame := by
  refine ⟨rfl, fun s hb hwf => ⟨fun hlen hfit htarget hpay => ?_, fun hlen hlong => ?_, fun hmissing => ?_⟩⟩
  · have hrun := accept_run 0x02 State.encDs2Body hb (ds2Present_iff.2 ⟨hlen, fun _ => ⟨htarget, hpay⟩⟩)
    have hsize := length_ds2Request s
    refine ⟨_, congrArg Host.Outcome.next (hrun.trans (encDs2Body_fits hfit)), rfl, fun i hi => ?_, fun a ha => ?_⟩
    · have hi' : i < s.ds2Request.length := by omega
      exact (Memory.read_writeBytes_inside hwf s.ds2Request txBase i hi').trans (List.getD_eq_getElem _ _ hi').symm
    · exact Memory.read_writeBytes_outside hwf s.ds2Request txBase a (by rwa [hsize])
  · have hrun := accept_run 0x02 State.encDs2Body hb (ds2Present_iff.2 ⟨hlen, fun hfit => by omega⟩)
    exact congrArg Host.Outcome.next (hrun.trans (if_pos (tooLong_iff.2 hlong)))
  · have habsent : s.ds2Present = false := Bool.eq_false_iff.2 (ds2Present_iff.not.2 hmissing)
    exact congrArg Host.Outcome.next (accept_missing 0x02 State.encDs2Body hb habsent)

/-! ## The accept of a decode (R102, R122) -/

/-- Settles O19: the accept with no operand to miss. -/
theorem decodeCommandsAcceptAndFrame : Obligations.DecodeCommandsAcceptAndFrame := fun _ hb =>
  ⟨congrArg Host.Outcome.next (accept_run 0x04 State.beginDecode hb rfl),
    congrArg Host.Outcome.next (accept_run 0x05 State.beginDecode hb rfl)⟩

/-! ## One decoder step (R103, R123) -/

/-- R106: a length byte below 3. -/
theorem ds2Byte_badLength {s : State} {r : Byte} (h1 : s.rxCount = 1) (h3 : r.toNat < 3) :
    s.ds2Byte r = (some .badLength, s.storeRx r) := by
  rw [State.ds2Byte, if_pos h1, if_pos h3]

/-- R103: with any other byte DEC_NEED is known from byte 1 on, and the frame may be at its end. -/
theorem ds2Byte_framed {s : State} {r : Byte} (h : ¬ (s.rxCount = 1 ∧ r.toNat < 3)) {need : Half}
    (hneed : need = if s.rxCount = 1 then zext16 r else s.decNeed) :
    s.ds2Byte r = (((s.storeRx r).setNeed need).frameEnd, (s.storeRx r).setNeed need) := by
  rw [State.ds2Byte]
  by_cases h1 : s.rxCount = 1
  · rw [if_pos h1] at hneed ⊢
    rw [if_neg fun h3 => h ⟨h1, h3⟩, hneed]
  · rw [if_neg h1] at hneed ⊢
    rw [hneed]
    rfl

theorem frameEnd_continue {s : State} (h : ¬ (s.decNeed ≠ 0 ∧ s.rxCount = s.decNeed)) : s.frameEnd = none := if_neg h

/-- R108: at DEC_NEED bytes the fold decides. -/
theorem frameEnd_verdict {s : State} (h0 : s.decNeed ≠ 0) (h : s.rxCount = s.decNeed) :
    s.frameEnd = some (if s.decAcc = 0x00 then .ok else .checksumError) := if_pos ⟨h0, h⟩

/-- Settles O32: the decoder's step for the answer, and DEC_DS2's ending where it gives a verdict. -/
theorem decDs2EngineStep : Obligations.DecDs2EngineStep := by
  intro s ht hp hc hn
  have hstep : step s = .next (phaseStep s.takeTurn.decStepDs2 State.decDs2Finish) :=
    step_engine (runs_decDs2 hp hc) rfl rfl hn ht
  refine ⟨fun ha h0 => ?_, fun ha h0 => ?_, fun r ha => ?_⟩
  · have hverdict : s.takeTurn.timeoutVerdict = .noReply := if_pos h0
    rw [hstep, decStepDs2_timeout (s := s.takeTurn) ha, hverdict]
    rfl
  · have hverdict : s.takeTurn.timeoutVerdict = .incompleteFrame := if_neg h0
    rw [hstep, decStepDs2_timeout (s := s.takeTurn) ha, hverdict]
    rfl
  · rw [hstep, decStepDs2_byte (s := s.takeTurn) ha]
    intro u need
    have hframed (h : ¬ (s.rxCount = 1 ∧ r.toNat < 3)) :
        s.takeTurn.rxConsume.ds2Byte r = ((u.setNeed need).frameEnd, u.setNeed need) :=
      ds2Byte_framed (s := s.takeTurn.rxConsume) h rfl
    have hfold : (u.setNeed need).decAcc = s.decAcc ^^^ r := rfl
    refine ⟨fun h1 h3 => ?_, fun h hmore => ?_, fun h h0 hend hacc => ?_, fun h h0 hend hacc => ?_⟩
    · rw [ds2Byte_badLength (s := s.takeTurn.rxConsume) h1 h3]
      rfl
    · rw [hframed h, frameEnd_continue (s := u.setNeed need) hmore]
      rfl
    · rw [hframed h, frameEnd_verdict (s := u.setNeed need) h0 hend, hfold, if_neg hacc]
      rfl
    · rw [hframed h, frameEnd_verdict (s := u.setNeed need) h0 hend, hfold, if_pos hacc]
      rfl

/-- R103: every byte is stored, and DEC_NEED may be set. -/
theorem ds2Byte_state (s : State) (r : Byte) : ∃ need, (s.ds2Byte r).2 = (s.storeRx r).setNeed need := by
  rw [State.ds2Byte]
  split_ifs
  · exact ⟨s.decNeed, rfl⟩
  · exact ⟨zext16 r, rfl⟩
  · exact ⟨s.decNeed, rfl⟩

/-- R123: the same of DEC_KWP's decoder. -/
theorem kwpByte_state (s : State) (r : Byte) : ∃ need, (s.kwpByte r).2 = (s.storeRx r).setNeed need := by
  rw [State.kwpByte]
  split_ifs
  · exact ⟨s.decNeed, rfl⟩
  · exact ⟨zext16 r + 5, rfl⟩
  · exact ⟨s.decNeed, rfl⟩

/-- What a step of either decoder leaves: after a TIMEOUT the read alone, after a byte that byte stored, and DEC_NEED
possibly set. -/
theorem decoderStep_cases {s t : State} {v : Option Verdict}
    (h : s.decStepDs2 = (v, t) ∨ s.decStepKwp = (v, t)) :
    (s.rxAnswer = .timeout ∧ v = some s.timeoutVerdict ∧ t = s.rxConsume) ∨
      ∃ r need, s.rxAnswer = .byte r ∧ t = (s.rxConsume.storeRx r).setNeed need := by
  cases ha : s.rxAnswer with
  | timeout =>
    rw [decStepDs2_timeout ha, decStepKwp_timeout ha, or_self, Prod.mk.injEq] at h
    exact .inl ⟨rfl, h.1.symm, h.2.symm⟩
  | byte r =>
    rw [decStepDs2_byte ha, decStepKwp_byte ha] at h
    obtain h | h := h
    · obtain ⟨need, hneed⟩ := ds2Byte_state s.rxConsume r
      exact .inr ⟨r, need, rfl, (congrArg Prod.snd h).symm.trans hneed⟩
    · obtain ⟨need, hneed⟩ := kwpByte_state s.rxConsume r
      exact .inr ⟨r, need, rfl, (congrArg Prod.snd h).symm.trans hneed⟩

/-- Settles O38, by the answer of the Line. -/
theorem decoderStepFrame : Obligations.DecoderStepFrame := by
  intro s t v hwf _ h
  obtain ⟨ha, rfl, rfl⟩ | ⟨r, need, ha, rfl⟩ := decoderStep_cases h
  · refine ⟨rfl, fun _ => ⟨rfl, rfl, rfl, rfl, fun h0 => ?_, fun h0 => ?_⟩, fun r hr => ?_⟩
    · exact congrArg some (if_pos h0)
    · exact congrArg some (if_neg h0)
    · rw [ha] at hr
      cases hr
  · refine ⟨rfl, fun ht => ?_, fun r' hr => ?_⟩
    · rw [ha] at ht
      cases ht
    · rw [ha] at hr
      cases hr
      refine ⟨?_, fun a hne => Memory.read_write_ne r hne.symm s.mem, rfl, rfl⟩
      exact (Memory.read_write hwf _ _ r).trans (if_pos rfl)

/-! ## What a run of bytes leaves to read -/

section
variable {s : State} {need : Half} {p : List Byte}

theorem toNat_rxCount_fed (hp : p.length ≤ 260) : (s.fed need p).rxCount.toNat = p.length := toNat_ofNat_count hp

/-- R107: the bytes taken are RX_FRAME[0 : RX_COUNT]. -/
theorem rxFrame_fed (hwf : s.mem.wf = true) (hp : p.length ≤ 260) : (s.fed need p).rxFrame = p := by
  rw [State.rxFrame, toNat_rxCount_fed hp]
  exact Memory.readBytes_writeBytes hwf p rxBase

/-- R109: no byte after those taken is consumed. -/
theorem rx_fed {rest : List RxAnswer} (hline : s.lineGives p rest) : (s.fed need p).rx = rest := by
  show s.rx.drop p.length = rest
  rw [hline, List.drop_left' (List.length_map _)]

end

theorem length_rxFrame (s : State) : s.rxFrame.length = s.rxCount.toNat := Memory.length_readBytes ..

theorem rxByte_of_rxFrame {s : State} {f : List Byte} (h : s.rxFrame = f) {i : Nat} (hi : i < f.length) :
    s.rxByte i = f.getD i 0 := by
  subst h
  rw [List.getD_eq_getElem _ _ hi]
  exact (Memory.getElem_readBytes _ _ _ _ hi).symm

/-- A run of bytes inside another one. -/
theorem Memory.readBytes_within (m : Memory) (base : Nat) {n k l : Nat} (h : k + l ≤ n) :
    m.readBytes (base + k) l = ((m.readBytes base n).drop k).take l := by
  apply List.ext_getElem
  · simp
    omega
  · intro i _ _
    simp [Nat.add_assoc]

/-! ## A frame that arrives whole (R107 to R110) -/

theorem decDs2Finish_rxFrame (v : Verdict) (s : State) : (State.decDs2Finish v s).rxFrame = s.rxFrame := by
  cases v <;> rfl

/-- Settles O49: the frame is decoded to its last byte, and there the verdict is its checksum's. -/
theorem wholeDs2FrameVerdict : Obligations.WholeDs2FrameVerdict := by
  intro s f rest sched h hp hcmd hc h3 hl hline hs
  have hlen : f.length ≤ 260 := by
    have := (f.getD 1 0).isLt
    omega
  have hframe : (s.fed (ds2Need f) f).rxFrame = f := rxFrame_fed h.memWf hlen
  have hsum : xorFold f = 0x00 ↔ xorFold f.dropLast = f.getLastD 0 :=
    xorFold_dropLast (List.ne_nil_of_length_pos (by omega))
  refine ⟨_, run_decDs2 h hp hc hline hs hcmd h3 hl, (decDs2Finish_keepsLine _ _).1.trans (rx_fed hline),
    (decDs2Finish_rxFrame _ _).trans hframe, fun hok => ?_, fun hbad => ?_⟩
  · rw [if_pos (hsum.2 hok)]
    refine ⟨rfl, rfl, rfl, rfl, ?_⟩
    show (zext16 ((s.fed (ds2Need f) f).rxByte 1) - 3).toNat = f.length - 3
    rw [rxByte_of_rxFrame hframe (by omega), toNat_zext16_sub (by rw [hl]; exact h3), hl]
    rfl
  · rw [if_neg (hsum.not.2 hbad)]
    have hpending := h.pending (runs_decDs2 hp hcmd).1
    exact ⟨rfl, rfl, rfl, hpending.payOff, hpending.payLen⟩

/-- Settles O51: an encoded frame is a frame that arrives whole, and its checksum is right. -/
theorem ds2RoundTrip : Obligations.Ds2RoundTrip := by
  intro s a p rest sched h hb hp hline hs
  have haccept := (decodeCommandsAcceptAndFrame s hb).1
  have hlen := length_encodeDs2 a p
  have hbyte := toNat_getD_one_encodeDs2 a hp
  have hsum := (xorFold_dropLast (List.ne_nil_of_length_pos (by omega))).1 (xorFold_encodeDs2 a p)
  obtain ⟨t, hrun, -, hframe, hok, -⟩ := wholeDs2FrameVerdict _ (encodeDs2 a p) rest sched (inv_exec h haccept)
    rfl rfl rfl (by omega) (hbyte.trans hlen.symm) hline (by rw [hlen]; exact hs)
  obtain ⟨hphase, -, -, -, hpay⟩ := hok hsum
  have hcount : t.rxCount.toNat = p.length + 3 := (length_rxFrame t).symm.trans ((congrArg List.length hframe).trans hlen)
  rw [hlen] at hrun hpay
  refine ⟨_, t, haccept, hrun, hphase, rxByte_of_rxFrame hframe (by omega), ?_, hcount, hpay⟩
  rw [Memory.readBytes_within t.mem 0x400 (n := t.rxCount.toNat) (by omega)]
  exact (congrArg (fun f => (f.drop 2).take p.length) hframe).trans (List.take_left' rfl)

/-! ## A frame that stops arriving (R104, R105, R125) -/

theorem decDs2Finish_fails {v : Verdict} (h : v ≠ .ok) (s : State) :
    State.decDs2Finish v s = State.raise v.result { s with detail := some v } := by
  cases v with
  | ok => exact absurd rfl h
  | _ => rfl

theorem decKwpFinish_fails {v : Verdict} (h : v ≠ .ok) (s : State) :
    State.decKwpFinish v s = State.raise v.result { s with detail := some v } := by
  cases v with
  | ok => exact absurd rfl h
  | _ => rfl

theorem timeoutVerdict_ne_ok (s : State) : s.timeoutVerdict ≠ .ok := by
  rw [State.timeoutVerdict]
  split <;> nofun

theorem timeoutVerdict_fed {s : State} {need : Half} {p : List Byte} (hp : p.length ≤ 260) :
    (s.fed need p).timeoutVerdict = if p = [] then .noReply else .incompleteFrame := by
  have hzero : (s.fed need p).rxCount = 0 ↔ p = [] :=
    (ofNat_count_inj (m := 0) hp (by omega)).trans List.length_eq_zero_iff
  simp only [State.timeoutVerdict, hzero]

/-- The state after the bytes `p` of a frame and a TIMEOUT. -/
def State.cutShort (s : State) (need : Half) (p : List Byte) : State :=
  let t := s.fed need p
  State.raise t.timeoutVerdict.result { t.takeTurn.rxConsume with detail := some t.timeoutVerdict }

section
variable {s : State} {dec : State → Option Verdict × State} {fin : Verdict → State → State} {need : Half}
  {p : List Byte} {rest : List RxAnswer} {sched : List Turn}

/-- A TIMEOUT after bytes with no verdict, in either decoder: the same decoder's answer and the same ending. -/
theorem run_cutShort (hr : s.Runs dec fin)
    (hdec : ∀ {u : State}, u.rxAnswer = .timeout → dec u = (some u.timeoutVerdict, u.rxConsume))
    (hfin : ∀ {v : Verdict}, v ≠ .ok → ∀ u : State, fin v u = State.raise v.result { u with detail := some v })
    (hline : s.lineGives p (.timeout :: rest)) (hs : s.schedule = List.replicate (p.length + 1) .engine ++ sched)
    (hp : p.length < 260) (hrun : Host.Core.run core p.length s = .next (s.fed need p)) :
    Host.Core.run core (p.length + 1) s = .next (s.cutShort need p) := by
  have hroom : (s.fed need p).rxCount.toNat < 260 := by rwa [toNat_rxCount_fed (Nat.le_of_lt hp)]
  rw [run_succ hrun, step_engine (s := s) (u := s.fed need p) hr rfl rfl hroom (nextTurn_fed hs (Nat.lt_succ_self _)),
    hdec (rxAnswer_fed hline)]
  exact congrArg Host.Outcome.next (hfin (timeoutVerdict_ne_ok _) _)

theorem rx_cutShort (hline : s.lineGives p (.timeout :: rest)) : (s.cutShort need p).rx = rest :=
  congrArg List.tail (rx_fed (need := need) hline)

end

/-- Settles O53: no beginning of a frame gives a verdict, and the TIMEOUT after it does. -/
theorem frameCutShortByTimeout : Obligations.FrameCutShortByTimeout := by
  intro s p rest sched h hp hc hline hs hframe
  have hline' : s.rx = (p ++ []).map RxAnswer.byte ++ (.timeout :: rest) := by rwa [List.append_nil]
  have hlen : p.length < 260 := by
    have := (p.getD 1 0).isLt
    have := (p.getD 3 0).isLt
    omega
  have hrun : ∃ need, Host.Core.run core (p.length + 1) s = .next (s.cutShort need p) := by
    obtain ⟨hcmd, hbegin⟩ | ⟨hcmd, hheader, hbegin⟩ := hframe
    · have hr := runs_decDs2 hp hcmd
      exact ⟨_, run_cutShort hr decStepDs2_timeout decDs2Finish_fails hline hs hlen
        (run_ds2_short hr hc (h.decNeed_frameStart hr.1 hc) (h.decAcc_frameStart hc) hs [] p hline' (Nat.le_succ _)
          hbegin)⟩
    · have hr := runs_decKwp hp hcmd
      exact ⟨_, run_cutShort hr decStepKwp_timeout decKwpFinish_fails hline hs hlen
        (run_kwp_short hr hc (h.decNeed_frameStart hr.1 hc) (h.decAcc_frameStart hc) hs [] p hline' (Nat.le_succ _)
          hheader hbegin)⟩
  obtain ⟨need, hrun⟩ := hrun
  have hverdict := timeoutVerdict_fed (s := s) (need := need) (Nat.le_of_lt hlen)
  refine ⟨_, hrun, rfl, rx_cutShort hline, rxFrame_fed (need := need) h.memWf (Nat.le_of_lt hlen),
    toNat_rxCount_fed (s := s) (need := need) (Nat.le_of_lt hlen), fun hnone => ?_, fun hsome => ?_⟩
  · rw [if_pos hnone] at hverdict
    exact ⟨congrArg Verdict.result hverdict, congrArg some hverdict⟩
  · rw [if_neg hsome] at hverdict
    exact ⟨congrArg Verdict.result hverdict, congrArg some hverdict⟩

/-! ## Bytes that begin no frame (R106, R124, R128) -/

/-- Settles O54: the byte that breaks the framing gives the verdict in the step that takes it. -/
theorem framingFailuresStopAtOnce : Obligations.FramingFailuresStopAtOnce := by
  intro s rest sched h hp hc
  refine ⟨fun a l hcmd hl hline hs => ?_, fun b hcmd hb hline hs => ?_⟩
  · have hr := runs_decDs2 hp hcmd
    have hfirst := run_ds2_short (n := 2) hr hc (h.decNeed_frameStart hr.1 hc) (h.decAcc_frameStart hc) hs [l] [a] hline
      (by simp) (by simp)
    have hsecond := step_fed_ds2 (n := 2) (p := [a]) (b := l) hr hline hs (by simp) (by simp)
    rw [if_pos ⟨rfl, hl⟩] at hsecond
    exact ⟨_, (run_succ hfirst).trans hsecond, rfl, rfl, rfl, rfl, rxFrame_fed (need := 0) h.memWf (by simp),
      rx_fed (need := 0) hline⟩
  · have hr := runs_decKwp hp hcmd
    have hstep := step_fed_kwp (n := 1) (p := []) (b := b) hr hline hs (by decide) (by decide)
    rw [if_pos ⟨rfl, hb⟩, show kwpNeed [] = 0 from rfl,
      fed_nil hc (h.decNeed_frameStart hr.1 hc) (h.decAcc_frameStart hc)] at hstep
    exact ⟨_, (run_one s).trans hstep, rfl, rfl, rfl, rfl, rxFrame_fed (need := 0) h.memWf (by simp),
      rx_fed (need := 0) hline⟩

end Sys2Proof.Machine
end

section
/-! PROOFS. The KWP2000 frame codec (spec/42_kwp_codec.md): the frame that is encoded (R121) and ENC_KWP (R120), the
Engine's step of DEC_KWP (R122, R123), and the decode of a frame that arrives whole (R126, R127, R129). -/

namespace Sys2Proof.Machine

/-! ## The encoded frame (R121) -/

/-- R121: past the header, the address bytes and the length stand the payload and the checksum. -/
theorem drop_four_encodeKwp (t src : Byte) (p : List Byte) :
    (encodeKwp t src p).drop 4 =
      p ++ [xorFold (Config.kwpHeader :: t :: src :: BitVec.ofNat 8 p.length :: p)] := rfl

/-- R78: byte 3 of an encoded frame is the payload's length. -/
theorem toNat_getD_three_encodeKwp (t src : Byte) {p : List Byte} (hp : p.length ≤ 255) :
    ((encodeKwp t src p).getD 3 0).toNat = p.length := by
  show (BitVec.ofNat 8 p.length).toNat = p.length
  rw [BitVec.toNat_ofNat]
  omega

/-- Settles O15: the frame as EncodeKWP builds it, and the length byte does not overflow. -/
theorem encodeKwpFrameShape : Obligations.EncodeKwpFrameShape := by
  intro t src p hp
  refine ⟨length_encodeKwp t src p, rfl, rfl, rfl, ?_, ?_, ?_⟩
  · exact congrArg some (toNat_getD_three_encodeKwp t src hp)
  · rw [drop_four_encodeKwp, List.dropLast_concat]
  · rw [encodeKwp, List.getLast?_concat, List.dropLast_concat]

/-! ## ENC_KWP (R120) -/

/-- R140: ENC_KWP's operands. -/
theorem kwpPresent_iff {s : State} :
    s.kwpPresent = true ↔ s.written.has 0x00A = true ∧ s.written.has 0x008 = true ∧ s.written.has 0x009 = true ∧
      ∀ i, i < s.reqLen.toNat → s.written.has (0x100 + i) = true := by
  rw [State.kwpPresent, Bool.and_eq_true, Bool.and_eq_true, Bool.and_eq_true, payloadWritten_iff, and_assoc, and_assoc]
  rfl

/-- The checksum byte of the request frame. -/
theorem getLastD_kwpRequest (s : State) : s.kwpRequest.getLastD 0x00 = s.kwpRequest.getD (s.reqLen.toNat + 4) 0 := by
  rw [List.getLastD_eq_getLast?, List.getLast?_eq_getElem?, length_kwpRequest, List.getD_eq_getElem?_getD]
  rfl

/-- R120: the body of ENC_KWP. -/
theorem encKwpBody_eq (s : State) :
    s.encKwpBody = { s with
      phase := .complete, result := .ok, mem := s.mem.writeBytes txBase s.kwpRequest,
      txLen := BitVec.ofNat 16 (s.reqLen.toNat + 5), csumOut := s.kwpRequest.getD (s.reqLen.toNat + 4) 0 } := by
  rw [State.encKwpBody, State.storeTx, length_kwpRequest, getLastD_kwpRequest]
  rfl

/-- Settles O18: the accept with its operands present, where the body stores the request frame, and with an operand
missing. -/
theorem encKwpResultAndFrame : Obligations.EncKwpResultAndFrame := by
  refine ⟨rfl, fun s hb hwf => ⟨fun hwritten => ?_, fun hmissing => ?_⟩⟩
  · have hrun := accept_run 0x03 State.encKwpBody hb (kwpPresent_iff.2 hwritten)
    have hsize := length_kwpRequest s
    refine ⟨_, congrArg Host.Outcome.next (hrun.trans (encKwpBody_eq _)), rfl, fun i hi => ?_, fun a ha => ?_⟩
    · have hi' : i < s.kwpRequest.length := by rwa [hsize]
      exact (Memory.read_writeBytes_inside hwf s.kwpRequest txBase i hi').trans (List.getD_eq_getElem _ _ hi').symm
    · exact Memory.read_writeBytes_outside hwf s.kwpRequest txBase a (by rwa [hsize])
  · have habsent : s.kwpPresent = false := Bool.eq_false_iff.2 (kwpPresent_iff.not.2 hmissing)
    exact congrArg Host.Outcome.next (accept_missing 0x03 State.encKwpBody hb habsent)

/-! ## One Engine step of DEC_KWP (R122, R123) -/

/-- R124: byte 0 is not the header. -/
theorem kwpByte_unexpectedHeader {s : State} {r : Byte} (h0 : s.rxCount = 0) (hr : r ≠ Config.kwpHeader) :
    s.kwpByte r = (some .unexpectedHeader, s.storeRx r) := by
  rw [State.kwpByte, if_pos ⟨h0, hr⟩]

/-- R123: with any other byte DEC_NEED is known from byte 3 on, and the frame may be at its end. -/
theorem kwpByte_framed {s : State} {r : Byte} (h : ¬ (s.rxCount = 0 ∧ r ≠ Config.kwpHeader)) {need : Half}
    (hneed : need = if s.rxCount = 3 then zext16 r + 5 else s.decNeed) :
    s.kwpByte r = (((s.storeRx r).setNeed need).frameEnd, (s.storeRx r).setNeed need) := by
  rw [State.kwpByte, if_neg h]
  by_cases h3 : s.rxCount = 3
  · rw [if_pos h3] at hneed ⊢
    rw [hneed]
  · rw [if_neg h3] at hneed ⊢
    rw [hneed]
    rfl

/-- Settles O33: the decoder's step for the answer, and DEC_KWP's ending where it gives a verdict. -/
theorem decKwpEngineStep : Obligations.DecKwpEngineStep := by
  intro s ht hp hc hn
  have hstep : step s = .next (phaseStep s.takeTurn.decStepKwp State.decKwpFinish) :=
    step_engine (runs_decKwp hp hc) rfl rfl hn ht
  refine ⟨fun ha h0 => ?_, fun ha h0 => ?_, fun r ha => ?_⟩
  · have hverdict : s.takeTurn.timeoutVerdict = .noReply := if_pos h0
    rw [hstep, decStepKwp_timeout (s := s.takeTurn) ha, hverdict]
    rfl
  · have hverdict : s.takeTurn.timeoutVerdict = .incompleteFrame := if_neg h0
    rw [hstep, decStepKwp_timeout (s := s.takeTurn) ha, hverdict]
    rfl
  · rw [hstep, decStepKwp_byte (s := s.takeTurn) ha]
    intro u need
    have hframed (h : ¬ (s.rxCount = 0 ∧ r ≠ 0xB8)) :
        s.takeTurn.rxConsume.kwpByte r = ((u.setNeed need).frameEnd, u.setNeed need) :=
      kwpByte_framed (s := s.takeTurn.rxConsume) h rfl
    have hfold : (u.setNeed need).decAcc = s.decAcc ^^^ r := rfl
    refine ⟨fun h0 hr => ?_, fun h hmore => ?_, fun h h0 hend hacc => ?_, fun h h0 hend hacc => ?_⟩
    · rw [kwpByte_unexpectedHeader (s := s.takeTurn.rxConsume) h0 hr]
      rfl
    · rw [hframed h, frameEnd_continue (s := u.setNeed need) hmore]
      rfl
    · rw [hframed h, frameEnd_verdict (s := u.setNeed need) h0 hend, hfold, if_neg hacc]
      rfl
    · rw [hframed h, frameEnd_verdict (s := u.setNeed need) h0 hend, hfold, if_pos hacc]
      rfl

/-! ## A frame that arrives whole (R126, R127, R129) -/

theorem decKwpFinish_rxFrame (v : Verdict) (s : State) : (State.decKwpFinish v s).rxFrame = s.rxFrame := by
  cases v <;> rfl

/-- Settles O50: the frame is decoded to its last byte, and there the verdict is its checksum's. -/
theorem wholeKwpFrameVerdict : Obligations.WholeKwpFrameVerdict := by
  intro s f rest sched h hp hcmd hc h0 h5 hl hline hs
  have hlen : f.length ≤ 260 := by
    have := (f.getD 3 0).isLt
    omega
  have hframe : (s.fed (kwpNeed f) f).rxFrame = f := rxFrame_fed h.memWf hlen
  have hsum : xorFold f = 0x00 ↔ xorFold f.dropLast = f.getLastD 0 :=
    xorFold_dropLast (List.ne_nil_of_length_pos (by omega))
  refine ⟨_, run_decKwp h hp hc hline hs hcmd h5 h0 hl, (decKwpFinish_keepsLine _ _).1.trans (rx_fed hline),
    (decKwpFinish_rxFrame _ _).trans hframe, fun hok => ?_, fun hbad => ?_⟩
  · rw [if_pos (hsum.2 hok)]
    refine ⟨rfl, rfl, rfl, rfl, ?_⟩
    show (zext16 ((s.fed (kwpNeed f) f).rxByte 3)).toNat = f.length - 5
    rw [toNat_zext16, rxByte_of_rxFrame hframe (by omega)]
    omega
  · rw [if_neg (hsum.not.2 hbad)]
    have hpending := h.pending (runs_decKwp hp hcmd).1
    exact ⟨rfl, rfl, rfl, hpending.payOff, hpending.payLen⟩

/-- Settles O52: an encoded frame is a frame that arrives whole, and its checksum is right. -/
theorem kwpRoundTrip : Obligations.KwpRoundTrip := by
  intro s a b p rest sched h hb hp hline hs
  have haccept := (decodeCommandsAcceptAndFrame s hb).2
  have hlen := length_encodeKwp a b p
  have hbyte := toNat_getD_three_encodeKwp a b hp
  have hsum := (xorFold_dropLast (List.ne_nil_of_length_pos (by omega))).1 (xorFold_encodeKwp a b p)
  obtain ⟨t, hrun, -, hframe, hok, -⟩ := wholeKwpFrameVerdict _ (encodeKwp a b p) rest sched (inv_exec h haccept)
    rfl rfl rfl rfl (by omega) (by omega) hline (by rw [hlen]; exact hs)
  have hcount : t.rxCount.toNat = p.length + 5 :=
    (length_rxFrame t).symm.trans ((congrArg List.length hframe).trans hlen)
  rw [hlen] at hrun
  refine ⟨_, t, haccept, hrun, (hok hsum).1, rxByte_of_rxFrame hframe (by omega), rxByte_of_rxFrame hframe (by omega),
    ?_, hcount⟩
  rw [Memory.readBytes_within t.mem 0x400 (n := t.rxCount.toNat) (by omega)]
  exact (congrArg (fun f => (f.drop 4).take p.length) hframe).trans (List.take_left' rfl)

end Sys2Proof.Machine
end

section
/-! PROOFS. Every step from a state that meets the invariant answers a next state (R68, R143), and a command ends
within its bound of Engine steps (R158). -/

namespace Sys2Proof.Machine

/-! ## The places of the order (R68) -/

theorem step_engineTurn {s : State} (ht : s.nextTurn = .engine) : step s = engineTurn s.takeTurn := by
  rw [step, ht]

theorem hostTurn_nil {s : State} (hp : s.program = []) : hostTurn s = .next s := by
  have haction : s.hostAction = .nothing := by
    rw [State.hostAction, hp]
    rfl
  rw [hostTurn, haction]

/-- Settles O5, by whose place it is. -/
theorem stepGivesOtherTurns : Obligations.StepGivesOtherTurns :=
  ⟨fun _ ht hb => (step_engineTurn ht).trans (if_pos hb),
    fun _ ht hb => (step_engineTurn ht).trans (if_neg (Bool.eq_false_iff.1 hb)),
    fun s ht hp => (step_host ht).trans (hostTurn_nil (s := s.takeTurn) hp)⟩

/-! ## No instruction and no place of the Host stops (R183) -/

theorem execCommandCode_next (c : Byte) (s : State) : ∃ t, execCommandCode c s = .next t := by
  rw [execCommandCode]
  split <;> exact ⟨_, rfl⟩

theorem performWrite_next (l : Sys2Proof.Loc) (b : Byte) (s : State) : ∃ t, performWrite l b s = .next t := by
  unfold performWrite
  split
  case h_1 => exact execCommandCode_next b s
  all_goals exact ⟨_, rfl⟩

theorem execHwr_next (a : HostAddr) (d : Half) (s : State) : ∃ t, execHwr a d s = .next t := by
  obtain ⟨f, hfault⟩ | ⟨l, _, _, _, hperform⟩ := execHwr_cases s a d
  · exact ⟨_, hfault s rfl⟩
  · rw [hperform s rfl]
    exact performWrite_next l (lowByte d) s

theorem exec_next (i : Instr) (s : State) : ∃ t, exec i s = .next t := by
  cases i with
  | hwr a d => exact execHwr_next a d s
  | hrd a =>
    obtain ⟨t, h, _⟩ := execHrd_repeats s a
    exact ⟨t, h⟩
  | _ => exact ⟨_, rfl⟩

/-- The Host's place stops only for a malformed program (R73). -/
theorem hostTurn_next {s : State} (hok : programOk s.program = true) : ∃ t, hostTurn s = .next t := by
  cases hp : s.program with
  | nil => exact ⟨s, hostTurn_nil hp⟩
  | cons x rest =>
    have hcons := hok
    rw [hp, programOk_cons, Bool.and_eq_true] at hcons
    obtain ⟨hx, hrest⟩ := hcons
    cases x with
    | poll => exact ⟨_, hostTurn_poll hp hrest⟩
    | word w =>
      cases hd : decode w with
      | error e => simp [stmtOk, hd, Except.isOk, Except.toBool] at hx
      | ok i =>
        rw [hostTurn_word hp hok hd]
        exact exec_next i _

/-- What is left of a program without malformed words has none. -/
theorem programOk_hostTurn {s t : State} (hok : programOk s.program = true) (h : hostTurn s = .next t) :
    programOk t.program = true := by
  have hrest : ∀ {x rest}, s.program = x :: rest → programOk rest = true := fun hp => by
    rw [hp, programOk_cons, Bool.and_eq_true] at hok
    exact hok.2
  obtain ⟨_, rfl⟩ | ⟨w, rest, i, hp, _, h⟩ | ⟨rest, _, _, rfl⟩ | ⟨rest, hp, _, rfl⟩ := hostTurn_cases h
  · exact hok
  · rw [(keeps_exec h).program]
    exact hrest hp
  · exact hok
  · exact hrest hp

/-! ## No step of the Engine stops (R143, R147) -/

section
variable {s : State} (h : s.Inv) (hb : s.busy = true)
include h hb

/-- R23, R40: some rule runs in every phase that is BUSY. -/
theorem State.Inv.exists_phaseRun : ∃ dec fin, s.PhaseRun dec fin := by
  have hfit := h.command
  unfold State.commandFits at hfit
  cases hp : s.phase <;> simp only [State.busy, hp, Phase.busy, Bool.false_eq_true] at hb hfit
  case decoding =>
    obtain hc | hc := hfit
    · exact ⟨_, _, .decDs2 hp hc⟩
    · exact ⟨_, _, .decKwp hp hc⟩
  case awaitingEcho =>
    obtain hc | hc := hfit
    · exact ⟨_, _, .echoDs2 hp hc⟩
    · exact ⟨_, _, .echoKwp hp hc⟩
  case awaitingReply =>
    obtain hc | hc := hfit
    · exact ⟨_, _, .replyDs2 hp hc⟩
    · exact ⟨_, _, .replyKwp hp hc⟩

/-- R75, R158: a running DS2 frame has at most 255 bytes. -/
theorem State.Inv.rxCount_lt_ds2 (hc : s.cmd = 0x04 ∨ s.cmd = 0x06) : s.rxCount.toNat < 255 := by
  obtain ⟨_, hneed⟩ := h.ds2 hb hc
  rcases Nat.lt_or_ge s.rxCount.toNat 2 with hlt | hge
  · omega
  · obtain ⟨hneed, _, hshort⟩ := hneed hge
    have := (s.rxByte 1).isLt
    rw [hneed, toNat_zext16] at hshort
    omega

/-- R78, R158: a running KWP2000 frame has at most 260 bytes. -/
theorem State.Inv.rxCount_lt_kwp (hc : s.cmd = 0x05 ∨ s.cmd = 0x07) : s.rxCount.toNat < 260 := by
  obtain ⟨_, _, hneed⟩ := h.kwp hb hc
  rcases Nat.lt_or_ge s.rxCount.toNat 4 with hlt | hge
  · omega
  · obtain ⟨hneed, hshort⟩ := hneed hge
    have := (s.rxByte 3).isLt
    rw [hneed, toNat_zext16_add] at hshort
    omega

theorem State.Inv.rxCount_lt : s.rxCount.toNat < 260 := by
  obtain hc | hc := h.cmd_busy hb
  · exact Nat.lt_trans (h.rxCount_lt_ds2 hb hc) (by decide)
  · exact h.rxCount_lt_kwp hb hc

theorem engineStep_next : ∃ t, engineStep s = .next t := by
  obtain ⟨dec, fin, hrun⟩ := h.exists_phaseRun hb
  exact ⟨_, hrun.runs.2 s rfl rfl (h.rxCount_lt hb)⟩

end

/-- Settles O40, by whose place the step is. -/
theorem invariantStatesNeverStop : Obligations.InvariantStatesNeverStop := by
  intro s h hok
  have hturn : s.takeTurn.Inv := h.env ..
  rw [step]
  split
  · exact hostTurn_next (s := s.takeTurn) hok
  · rw [engineTurn]
    split
    next hb => exact engineStep_next hturn hb
    next => exact ⟨_, rfl⟩
  · exact ⟨_, rfl⟩

/-! ## What a step of the Engine leaves alone, and whether it ends the command -/

section
variable {s : State} {dec : State → Option Verdict × State} {fin : Verdict → State → State}

theorem State.PhaseRun.decoder (h : s.PhaseRun dec fin) : dec = State.decStepDs2 ∨ dec = State.decStepKwp := by
  cases h with
  | decDs2 | echoDs2 | replyDs2 => exact .inl rfl
  | decKwp | echoKwp | replyKwp => exact .inr rfl

/-- The decoder's step that runs is a TIMEOUT's or a byte's (R103, R123). -/
theorem State.PhaseRun.dec_cases (h : s.PhaseRun dec fin) (u : State) :
    (u.rxAnswer = .timeout ∧ (dec u).1 = some u.timeoutVerdict ∧ (dec u).2 = u.rxConsume) ∨
      ∃ r need, u.rxAnswer = .byte r ∧ (dec u).2 = (u.rxConsume.storeRx r).setNeed need := by
  obtain rfl | rfl := h.decoder
  · exact decoderStep_cases (.inl rfl)
  · exact decoderStep_cases (.inr rfl)

/-- A decoder's step leaves the phase, the command and TXLOG. -/
theorem State.PhaseRun.dec_keeps (h : s.PhaseRun dec fin) :
    (dec s).2.busy = s.busy ∧ (dec s).2.cmd = s.cmd ∧ (dec s).2.txLog = s.txLog := by
  obtain ⟨_, _, hu⟩ | ⟨_, _, _, hu⟩ := h.dec_cases s <;> rw [hu] <;> exact ⟨rfl, rfl, rfl⟩

theorem replyDs2_txLog (s : State) : s.replyDs2.txLog = s.txLog := by
  rw [State.replyDs2]
  split_ifs <;> rfl

theorem replyDs2_done (s : State) : s.replyDs2.done = true := by
  rw [State.replyDs2]
  split_ifs <;> rfl

/-- R156: no phase's ending transmits. -/
theorem State.PhaseRun.fin_txLog (h : s.PhaseRun dec fin) (v : Verdict) (u : State) :
    (fin v u).txLog = u.txLog := by
  cases h with
  | replyDs2 =>
    cases v with
    | ok => exact replyDs2_txLog _
    | _ => rfl
  | _ => cases v <;> rfl

/-- Every ending ends the command, but for an echo's that was framed (R146). -/
theorem State.PhaseRun.fin_cases (h : s.PhaseRun dec fin) (v : Verdict) (u : State) :
    (fin v u).done = true ∨ (s.phase = .awaitingEcho ∧ fin v u = State.echoFinish .ok u) := by
  cases h with
  | replyDs2 =>
    cases v with
    | ok => exact .inl (replyDs2_done _)
    | _ => exact .inl rfl
  | echoDs2 hp | echoKwp hp =>
    cases v with
    | ok => exact .inr ⟨hp, rfl⟩
    | _ => exact .inl rfl
  | _ => cases v <;> exact .inl rfl

/-- R156: no step of a running command transmits. -/
theorem State.PhaseRun.phaseStep_txLog (h : s.PhaseRun dec fin) : (phaseStep (dec s) fin).txLog = s.txLog := by
  obtain ⟨_, _, hdec⟩ := h.dec_keeps
  rw [phaseStep]
  split
  · exact hdec
  · exact (h.fin_txLog _ _).trans hdec

end

/-! ## The bound of a command's Engine steps (R158) -/

/-- How many frames a command in this phase still takes from the Line, at most. -/
def Phase.framesLeft : Phase → Nat
  | .decoding | .awaitingReply => 1
  | .awaitingEcho => 2
  | .idle | .complete | .failed => 0

/-- DS2_MAX_FRAME or KWP_MAX_FRAME, by the code of the command that runs (R5, R71). -/
def frameBound (c : Byte) : Nat := if c = 0x04 ∨ c = 0x06 then Config.ds2MaxFrame else Config.kwpMaxFrame

/-- How many Engine steps a running command still takes, at most. -/
def State.readsLeft (s : State) : Nat := s.phase.framesLeft * frameBound s.cmd - s.rxCount.toNat

theorem Phase.framesLeft_pos {p : Phase} (h : p.busy = true) : 0 < p.framesLeft := by
  cases p <;> first | decide | cases h

theorem State.Inv.rxCount_lt_frameBound {s : State} (h : s.Inv) (hb : s.busy = true) :
    s.rxCount.toNat < frameBound s.cmd := by
  unfold frameBound
  split
  next hc => exact h.rxCount_lt_ds2 hb hc
  next => exact h.rxCount_lt hb

theorem State.Inv.readsLeft_pos {s : State} (h : s.Inv) (hb : s.busy = true) : 0 < s.readsLeft :=
  Nat.sub_pos_of_lt (Nat.lt_of_lt_of_le (h.rxCount_lt_frameBound hb)
    (Nat.le_mul_of_pos_left _ (Phase.framesLeft_pos hb)))

/-- One Engine step ends the command or leaves it fewer steps. -/
theorem engineStep_progress {s t : State} (h : s.Inv) (hb : s.busy = true) (ht : engineStep s = .next t) :
    t.done = true ∨ (t.busy = true ∧ t.readsLeft < s.readsLeft) := by
  have hlt := h.rxCount_lt_frameBound hb
  have hleft := h.readsLeft_pos hb
  obtain ⟨dec, fin, hrun, rfl⟩ := engineStep_cases hb ht
  rw [phaseStep]
  split
  next hv =>
    obtain ⟨_, hv', _⟩ | ⟨r, need, _, hu⟩ := hrun.dec_cases s
    · rw [hv] at hv'
      cases hv'
    · rw [hu]
      refine .inr ⟨hb, ?_⟩
      show s.phase.framesLeft * frameBound s.cmd - (s.rxCount + 1).toNat < s.readsLeft
      rw [toNat_count_succ (h.rxCount_lt hb)]
      unfold State.readsLeft at hleft ⊢
      omega
  next v hv =>
    obtain hdone | ⟨hp, hfin⟩ := hrun.fin_cases v (dec s).2
    · exact .inl hdone
    · obtain ⟨_, hcmd, _⟩ := hrun.dec_keeps
      rw [hfin]
      refine .inr ⟨rfl, ?_⟩
      show 1 * frameBound (dec s).2.cmd - 0 < s.readsLeft
      rw [hcmd, State.readsLeft, hp, Phase.framesLeft]
      omega

/-- R56, R57: the Host's place while a command runs leaves it what it was. -/
theorem hostTurn_running {s t : State} (hb : s.busy = true) (ht : hostTurn s = .next t) :
    t.busy = true ∧ t.readsLeft = s.readsLeft ∧ t.rxTaken = s.rxTaken := by
  rw [show t = _ from hostTurn_busy hb ht]
  exact ⟨hb, rfl, rfl⟩

/-- None of the next `m` places is a reset, and the Host's among them refuse nothing. -/
structure State.Undisturbed (s : State) (m : Nat) : Prop where
  noReset : ∀ j, j < m → s.turnAt j ≠ .reset
  program : programOk s.program = true ∨ ∀ j, j < m → s.turnAt j ≠ .host

/-- Among the next `m` places is one at which the command has ended, with one read and at most `n` for the Engine's
places before it. -/
def State.EndsWithin (s : State) (m n : Nat) : Prop :=
  ∃ k t, k ≤ m ∧ Host.Core.run core k s = .next t ∧ t.done = true ∧
    t.rxTaken = s.rxTaken + s.engineTurns k ∧ s.engineTurns k ≤ n

section
variable {s u : State} {m : Nat} (hs : step s = .next u)
include hs

theorem State.Undisturbed.step (h : s.Undisturbed (m + 1))
    (hok : programOk s.program = true → programOk u.program = true) : u.Undisturbed m where
  noReset j hj := turnAt_step hs j ▸ h.noReset (j + 1) (Nat.succ_lt_succ hj)
  program := h.program.imp hok fun hno j hj => turnAt_step hs j ▸ hno (j + 1) (Nat.succ_lt_succ hj)

theorem State.EndsWithin.step {e n : Nat} (he : (if s.nextTurn = .engine then 1 else 0) = e)
    (hread : u.rxTaken = s.rxTaken + e) (h : u.EndsWithin m n) : s.EndsWithin (m + 1) (e + n) := by
  obtain ⟨k, t, hk, hrun, hdone, htaken, hbound⟩ := h
  have hplaces : s.engineTurns (k + 1) = e + u.engineTurns k := he ▸ engineTurns_step hs k
  refine ⟨k + 1, t, Nat.succ_le_succ hk, (run_step k hs).trans hrun, hdone, ?_, ?_⟩
  · rw [htaken, hplaces, hread, Nat.add_assoc]
  · rw [hplaces]
    exact Nat.add_le_add_left hbound e

end

theorem State.EndsWithin.mono {s : State} {m n n' : Nat} (h : s.EndsWithin m n) (hn : n ≤ n') : s.EndsWithin m n' := by
  obtain ⟨k, t, hk, hrun, hdone, htaken, hbound⟩ := h
  exact ⟨k, t, hk, hrun, hdone, htaken, hbound.trans hn⟩

theorem endsWithin_of_done {s : State} {m : Nat} (h : s.done = true) : s.EndsWithin m 0 :=
  ⟨0, s, Nat.zero_le m, run_zero s, h, rfl, Nat.le_refl 0⟩

/-- A running command ends within the Engine steps it has left, among whatever places of the Host. -/
theorem endsWithin_readsLeft {m : Nat} {s : State} (h : s.Inv) (hb : s.busy = true) (hplaces : s.Undisturbed m)
    (hleft : s.readsLeft ≤ s.engineTurns m) : s.EndsWithin m s.readsLeft := by
  have hpos := h.readsLeft_pos hb
  induction m generalizing s with
  | zero =>
    rw [engineTurns_zero] at hleft
    omega
  | succ m ih =>
    have hturn : s.takeTurn.Inv := h.env ..
    cases hn : s.nextTurn with
    | reset => exact absurd ((turnAt_zero s).trans hn) (hplaces.noReset 0 (Nat.succ_pos m))
    | host =>
      have hok : programOk s.program = true :=
        hplaces.program.resolve_right fun hno => hno 0 (Nat.succ_pos m) ((turnAt_zero s).trans hn)
      obtain ⟨u, hu⟩ := hostTurn_next (s := s.takeTurn) hok
      have hs : step s = .next u := (step_host hn).trans hu
      obtain ⟨hub, hsame, htaken⟩ := hostTurn_running (s := s.takeTurn) hb hu
      have hsame : u.readsLeft = s.readsLeft := hsame
      have htaken : u.rxTaken = s.rxTaken + 0 := htaken
      have hcount : s.engineTurns (m + 1) = 0 + u.engineTurns m := by rw [engineTurns_step hs, hn]; rfl
      have hends := ih (inv_hostTurn hturn hu) hub
        (hplaces.step hs fun _ => programOk_hostTurn (s := s.takeTurn) hok hu) (by omega) (by omega)
      exact (hends.step hs (by rw [hn]; rfl) htaken).mono (by omega)
    | engine =>
      obtain ⟨u, hu⟩ := engineStep_next hturn hb
      have hs : step s = .next u := (stepGivesOtherTurns.1 s hn hb).trans hu
      have hread := engineStep_oneRead (s := s.takeTurn) hb hu
      have hcount : s.engineTurns (m + 1) = 1 + u.engineTurns m := by rw [engineTurns_step hs, hn]; rfl
      obtain hdone | ⟨hub, hfewer⟩ := engineStep_progress hturn hb hu
      · exact ((endsWithin_of_done hdone).step hs (by rw [hn]; rfl) hread.rxTaken).mono hpos
      · have hfewer : u.readsLeft < s.readsLeft := hfewer
        have hinv := inv_engineStep hturn hb hu
        have hends := ih hinv hub (hplaces.step hs fun hok => hread.program.symm ▸ hok) (by omega)
          (hinv.readsLeft_pos hub)
        exact (hends.step hs (by rw [hn]; rfl) hread.rxTaken).mono (by omega)

/-- R158: the bounds by command. -/
theorem State.Inv.readsLeft_le {s : State} {n : Nat} (h : s.Inv) (hb : s.busy = true)
    (hn : (s.cmd = 0x04 ∧ n = 255) ∨ (s.cmd = 0x05 ∧ n = 260) ∨ (s.cmd = 0x06 ∧ n = 510) ∨
      (s.cmd = 0x07 ∧ n = 520)) : s.readsLeft ≤ n := by
  obtain ⟨dec, fin, hrun⟩ := h.exists_phaseRun hb
  have hmax : s.phase.framesLeft * frameBound s.cmd ≤ n := by
    cases hrun with
    | decDs2 hp hc | decKwp hp hc | echoDs2 hp hc | echoKwp hp hc | replyDs2 hp hc | replyKwp hp hc =>
      simp [hc] at hn
      rw [hn, hp, hc]
      decide
  exact (Nat.sub_le _ _).trans hmax

/-- Settles O48: a command's bound is at least the Engine steps it has left. -/
theorem commandsEndWithinBounds : Obligations.CommandsEndWithinBounds := by
  intro s n m h hb hn hreset hprog hturns
  have hle := h.readsLeft_le hb hn
  exact (endsWithin_readsLeft h hb ⟨hreset, hprog⟩ (hle.trans hturns)).mono hle

/-! ## What is transmitted (R156) -/

/-- What an instruction does to TXLOG: nothing, or at a transaction's accept one frame more. -/
def TransmitsAtAccept (s t : State) : Prop :=
  t.txLog = s.txLog ∨ (s.busy = false ∧ t.phase = .awaitingEcho ∧ (t.cmd = 0x06 ∨ t.cmd = 0x07) ∧
    ∃ f, t.txLog = s.txLog ++ [f])

theorem accept_transmits {s : State} {c : Byte} {present : State → Bool} {body : State → State}
    (hbody : ∀ u : State, u.cmd = c → u.txLog = s.txLog → (body u).txLog = s.txLog ∨
      ((body u).phase = .awaitingEcho ∧ ((body u).cmd = 0x06 ∨ (body u).cmd = 0x07) ∧
        ∃ f, (body u).txLog = s.txLog ++ [f])) : TransmitsAtAccept s (s.accept c present body) := by
  cases hb : s.busy with
  | true => rw [accept_busy _ _ _ hb]; exact .inl rfl
  | false =>
    cases hp : present s with
    | false => rw [accept_missing _ _ hb hp]; exact .inl rfl
    | true =>
      rw [accept_run _ _ hb hp]
      exact (hbody (s.accepted c) rfl rfl).imp_right fun h => ⟨hb, h⟩

theorem encDs2Body_txLog (s : State) : s.encDs2Body.txLog = s.txLog := by
  rw [State.encDs2Body]
  split <;> rfl

theorem execCommandCode_transmits {s t : State} {c : Byte} (h : execCommandCode c s = .next t) :
    TransmitsAtAccept s t := by
  rw [execCommandCode] at h
  split at h <;> cases h <;> refine accept_transmits fun u hc hlog => ?_
  · exact .inl hlog
  · exact .inl ((encDs2Body_txLog u).trans hlog)
  · exact .inl hlog
  · exact .inl hlog
  · exact .inl hlog
  · rw [State.xactDs2Body]
    split
    · exact .inl hlog
    · exact .inr ⟨rfl, .inl hc, _, congrArg (· ++ _) hlog⟩
  · exact .inr ⟨rfl, .inr hc, _, congrArg (· ++ _) hlog⟩
  · exact .inl hlog

theorem performWrite_transmits {s t : State} {l : Sys2Proof.Loc} {b : Byte} (h : performWrite l b s = .next t) :
    TransmitsAtAccept s t := by
  unfold performWrite at h
  split at h
  case h_1 => exact execCommandCode_transmits h
  all_goals cases h; exact .inl rfl

theorem exec_transmits {s t : State} {i : Instr} (h : exec i s = .next t) : TransmitsAtAccept s t := by
  have hcommand : ∀ c, exec (decodeCmd8 c) s = .next t → TransmitsAtAccept s t := fun c h' =>
    execCommandCode_transmits (exec_decodeCmd8 c s ▸ h')
  cases i with
  | csum => exact hcommand 0x01 h
  | encDs2 => exact hcommand 0x02 h
  | encKwp => exact hcommand 0x03 h
  | decDs2 => exact hcommand 0x04 h
  | decKwp => exact hcommand 0x05 h
  | xactDs2 => exact hcommand 0x06 h
  | xactKwp => exact hcommand 0x07 h
  | illegal c => cases h; exact accept_transmits fun _ _ hlog => .inl hlog
  | hwr a d =>
    have h : execHwr a d s = .next t := h
    obtain ⟨f, hfault⟩ | ⟨l, _, _, _, hperform⟩ := execHwr_cases s a d
    · rw [hfault s rfl] at h
      cases h
      exact .inl rfl
    · exact performWrite_transmits ((hperform s rfl).symm.trans h)
  | hrd a =>
    obtain ⟨t', h', hframe, _⟩ := execHrd_repeats s a
    obtain rfl : t' = t := Host.Outcome.next.inj (h'.symm.trans h)
    exact .inl (congrArg State.txLog hframe :)

theorem hostTurn_transmits {s t : State} (h : hostTurn s = .next t) : TransmitsAtAccept s t := by
  obtain ⟨_, rfl⟩ | ⟨_, rest, _, _, _, h⟩ | ⟨_, _, _, rfl⟩ | ⟨_, _, _, rfl⟩ := hostTurn_cases h
  · exact .inl rfl
  · exact exec_transmits (s := { s with program := rest }) h
  · exact .inl rfl
  · exact .inl rfl

/-- Settles O43, by whose place the step is; that the frame is TX_FRAME[0 : TX_LEN] is the invariant's. -/
theorem transmitsOnlyAtAccept : Obligations.TransmitsOnlyAtAccept := by
  intro s t h hstep
  have hinv : t.Inv := stepKeepsStateInvariant s t h hstep
  obtain ⟨hn, ht⟩ | ⟨_, hb, ht⟩ | ⟨_, _, rfl⟩ | ⟨_, rfl⟩ := step_cases hstep
  · obtain hsame | ⟨hb, hphase, hcmd, f, hlog⟩ := hostTurn_transmits ht
    · exact .inl hsame
    · obtain ⟨_, hlast, _⟩ := hinv.sent (.inl hphase)
      have hlog : t.txLog = s.txLog ++ [f] := hlog
      rw [hlog, List.getLast?_concat, Option.some.injEq] at hlast
      exact .inr ⟨hn, hb, hphase, hcmd, hlast ▸ hlog⟩
  · obtain ⟨_, _, hrun, rfl⟩ := engineStep_cases (s := s.takeTurn) hb ht
    exact .inl hrun.phaseStep_txLog
  · exact .inl rfl
  · exact .inl rfl

end Sys2Proof.Machine
end

section
/-! PROOFS. The transactions (spec/43_transaction.md): their accept (R141, R142), the echo phase (R143 to R146), the
reply (R147 to R155), and both end to end. -/

namespace Sys2Proof.Machine

/-! ## The accept (R141, R142) -/

section
variable {s : State} (hwf : s.mem.wf = true) (f : List Byte)
include hwf

/-- R141, R142: the transmitted frame stands in TX_FRAME. -/
theorem transmit_stored {i : Nat} (hi : i < f.length) : (s.transmit f).mem.read (0x200 + i) = f.getD i 0 :=
  (Memory.read_writeBytes_inside hwf f txBase i hi).trans (List.getD_eq_getElem _ _ hi).symm

theorem transmit_mem_outside {a : Nat} (ha : a < 0x200 ∨ 0x200 + f.length ≤ a) :
    (s.transmit f).mem.read a = s.mem.read a := Memory.read_writeBytes_outside hwf f txBase a ha

end

theorem xactDs2Body_fits {s : State} (h : s.reqLen.toNat ≤ 252) : s.xactDs2Body = s.transmit s.ds2Request :=
  if_neg (tooLong_iff.not.2 (Nat.not_lt.2 h))

theorem transmit_ds2Request (s : State) : s.transmit s.ds2Request = { s with
    phase := .awaitingEcho, mem := s.mem.writeBytes txBase s.ds2Request,
    txLen := BitVec.ofNat 16 (s.reqLen.toNat + 3), csumOut := s.ds2Request.getD (s.reqLen.toNat + 2) 0,
    txLog := s.txLog ++ [s.ds2Request], echoCount := 0, rxCount := 0, decNeed := 0, decAcc := 0x00 } := by
  rw [State.transmit, State.storeTx, length_ds2Request, getLastD_ds2Request]
  rfl

theorem transmit_kwpRequest (s : State) : s.transmit s.kwpRequest = { s with
    phase := .awaitingEcho, mem := s.mem.writeBytes txBase s.kwpRequest,
    txLen := BitVec.ofNat 16 (s.reqLen.toNat + 5), csumOut := s.kwpRequest.getD (s.reqLen.toNat + 4) 0,
    txLog := s.txLog ++ [s.kwpRequest], echoCount := 0, rxCount := 0, decNeed := 0, decAcc := 0x00 } := by
  rw [State.transmit, State.storeTx, length_kwpRequest, getLastD_kwpRequest]
  rfl

section
variable {s : State} (hb : s.busy = false)
include hb

/-- R141: the accept of XACT_DS2 with its operands present and a payload that fits a frame. -/
theorem exec_xactDs2 (hp : s.ds2Present = true) (hfit : s.reqLen.toNat ≤ 252) :
    exec .xactDs2 s = .next ((s.accepted 0x06).transmit s.ds2Request) :=
  congrArg Host.Outcome.next ((accept_run 0x06 State.xactDs2Body hb hp).trans (xactDs2Body_fits hfit))

/-- R142: the accept of XACT_KWP with its operands present. -/
theorem exec_xactKwp (hp : s.kwpPresent = true) :
    exec .xactKwp s = .next ((s.accepted 0x07).transmit s.kwpRequest) :=
  congrArg Host.Outcome.next (accept_run 0x07 State.xactKwpBody hb hp)

end

/-- Settles O20: the accept with its operands present, by whether the payload fits a frame, and with one missing. -/
theorem xactDs2AcceptAndFrame : Obligations.XactDs2AcceptAndFrame := by
  refine fun s hb hwf => ⟨fun hlen hfit htarget hpay => ?_, fun hlen hlong => ?_, fun hmissing => ?_⟩
  · have hexec := exec_xactDs2 hb (ds2Present_iff.2 ⟨hlen, fun _ => ⟨htarget, hpay⟩⟩) hfit
    have hsize := length_ds2Request s
    refine ⟨_, hexec, transmit_ds2Request (s.accepted 0x06), fun i hi => ?_, fun a ha => ?_⟩
    · exact transmit_stored (s := s.accepted 0x06) hwf _ (by rwa [hsize])
    · exact transmit_mem_outside (s := s.accepted 0x06) hwf _ (by rwa [hsize])
  · have hrun := accept_run 0x06 State.xactDs2Body hb (ds2Present_iff.2 ⟨hlen, fun hfit => by omega⟩)
    exact congrArg Host.Outcome.next (hrun.trans (if_pos (tooLong_iff.2 hlong)))
  · have habsent : s.ds2Present = false := Bool.eq_false_iff.2 (ds2Present_iff.not.2 hmissing)
    exact congrArg Host.Outcome.next (accept_missing 0x06 State.xactDs2Body hb habsent)

/-- Settles O21: the accept with its operands present and with one missing. -/
theorem xactKwpAcceptAndFrame : Obligations.XactKwpAcceptAndFrame := by
  refine fun s hb hwf => ⟨fun hwritten => ?_, fun hmissing => ?_⟩
  · have hexec := exec_xactKwp hb (kwpPresent_iff.2 hwritten)
    have hsize := length_kwpRequest s
    refine ⟨_, hexec, transmit_kwpRequest (s.accepted 0x07), fun i hi => ?_, fun a ha => ?_⟩
    · exact transmit_stored (s := s.accepted 0x07) hwf _ (by rwa [hsize])
    · exact transmit_mem_outside (s := s.accepted 0x07) hwf _ (by rwa [hsize])
  · have habsent : s.kwpPresent = false := Bool.eq_false_iff.2 (kwpPresent_iff.not.2 hmissing)
    exact congrArg Host.Outcome.next (accept_missing 0x07 State.xactKwpBody hb habsent)

/-! ## One Engine step of each phase (R143 to R155) -/

theorem echoFinish_fails {v : Verdict} (h : v ≠ .ok) (s : State) :
    State.echoFinish v s = State.raise .busError { s with detail := some v, echoCount := s.rxCount } := by
  cases v with
  | ok => exact absurd rfl h
  | _ => rfl

theorem replyDs2Finish_fails {v : Verdict} (h : v ≠ .ok) (s : State) :
    State.replyDs2Finish v s = State.raise (replyFailure v) { s with detail := some v } := by
  cases v with
  | ok => exact absurd rfl h
  | _ => rfl

theorem replyKwpFinish_fails {v : Verdict} (h : v ≠ .ok) (s : State) :
    State.replyKwpFinish v s = State.raise (replyFailure v) { s with detail := some v } := by
  cases v with
  | ok => exact absurd rfl h
  | _ => rfl

/-- Settles O34: the echo's ending is the same with both decoders. -/
theorem echoPhaseStep : Obligations.EchoPhaseStep := by
  intro s t v ht hp hn hdec
  have hstep : step s = .next (phaseStep (v, t) State.echoFinish) := by
    obtain ⟨hc, hd⟩ | ⟨hc, hd⟩ := hdec
    · rw [step_engine (runs_echoDs2 hp hc) rfl rfl hn ht, hd]
    · rw [step_engine (runs_echoKwp hp hc) rfl rfl hn ht, hd]
  refine ⟨?_, ?_, ?_⟩
  · rintro rfl
    exact hstep
  · rintro rfl
    exact hstep
  · rintro x rfl hx
    exact hstep.trans (congrArg Host.Outcome.next (echoFinish_fails hx t))

/-- Settles O35: both replies' endings fail alike, and ReplyFailure is the table. -/
theorem replyVerdictMapping : Obligations.ReplyVerdictMapping := by
  intro s t v r ht hp hn hdec htable
  have hfails : v ≠ .ok ∧ replyFailure v = r := by
    obtain ⟨rfl, rfl⟩ | ⟨rfl, rfl⟩ | ⟨rfl, rfl⟩ | ⟨rfl, rfl⟩ | ⟨rfl, rfl⟩ := htable <;> exact ⟨nofun, rfl⟩
  obtain ⟨hv, rfl⟩ := hfails
  obtain ⟨hc, hd⟩ | ⟨hc, hd⟩ := hdec
  · rw [step_engine (runs_replyDs2 hp hc) rfl rfl hn ht, hd]
    exact congrArg Host.Outcome.next (replyDs2Finish_fails hv t)
  · rw [step_engine (runs_replyKwp hp hc) rfl rfl hn ht, hd]
    exact congrArg Host.Outcome.next (replyKwpFinish_fails hv t)

/-- Settles O37: ReplyKWP looks at no byte but the length. -/
theorem kwpReplySuccess : Obligations.KwpReplySuccess := by
  intro s t ht hp hc hn hd
  rw [step_engine (runs_replyKwp hp hc) rfl rfl hn ht, hd]
  rfl

/-! ### ReplyDS2 (R149 to R153) -/

theorem classify_eq_ok_iff {b : Byte} : classify b = .ok ↔ b = 0xA0 := by
  unfold classify
  split_ifs <;> simp_all

/-- R151: the classes other than OK, by the status byte. -/
theorem classify_failure {b : Byte} (h : b ≠ 0xA0) :
    (b = 0xA1 ∧ classify b = .computerBusy) ∨ (b = 0xA2 ∧ classify b = .invalidParameter) ∨
      (b = 0xFF ∧ classify b = .invalidCommand) ∨
      (b ≠ 0xA1 ∧ b ≠ 0xA2 ∧ b ≠ 0xFF ∧ classify b = .unknownStatus) := by
  unfold classify
  split_ifs <;> simp_all

section
variable {s : State}

/-- R150: a reply of another sender. -/
theorem replyDs2_otherSender (h : s.rxByte 0 ≠ s.txByte 0) : s.replyDs2 = s.raise .protocolError := if_pos h

section
variable (hsender : s.rxByte 0 = s.txByte 0)
include hsender

/-- R150: the target's reply without a status byte. -/
theorem replyDs2_noStatus (h3 : s.rxByte 1 = 3) : s.replyDs2 = s.raise .insufficientPayload := by
  rw [State.replyDs2, if_neg (not_not_intro hsender), if_pos h3]

variable (h3 : s.rxByte 1 ≠ 3)
include h3

/-- R152: a status byte of another class than OK. -/
theorem replyDs2_failure (hstatus : s.rxByte 2 ≠ 0xA0) : s.replyDs2 =
    State.raise .deviceStatusError { s with statusRaw := s.rxByte 2, statusClass := classify (s.rxByte 2) } := by
  rw [State.replyDs2, if_neg (not_not_intro hsender), if_neg h3]
  exact if_pos (classify_eq_ok_iff.not.2 hstatus)

/-- R153: the status byte of the class OK. -/
theorem replyDs2_success (hstatus : s.rxByte 2 = 0xA0) : s.replyDs2 = State.complete { s with
    statusRaw := 0xA0, statusClass := .ok, payOff := 3, payLen := zext16 (s.rxByte 1) - 4 } := by
  rw [State.replyDs2, if_neg (not_not_intro hsender), if_neg h3, hstatus]
  rfl

end
end

/-- Settles O36: the cases of ReplyDS2 in its order. -/
theorem ds2ReplyClassification : Obligations.Ds2ReplyClassification := by
  intro s t ht hp hc hn hd
  have hstep : step s = .next (State.replyDs2 { t with detail := some .ok }) := by
    rw [step_engine (runs_replyDs2 hp hc) rfl rfl hn ht, hd]
    rfl
  rw [hstep]
  refine ⟨fun h0 => ?_, fun h0 h3 => ?_, fun h0 h3 h2 => ?_, fun h0 h3 h2 => ?_⟩
  · exact congrArg Host.Outcome.next (replyDs2_otherSender (s := { t with detail := some .ok }) h0)
  · exact congrArg Host.Outcome.next (replyDs2_noStatus (s := { t with detail := some .ok }) h0 h3)
  · exact ⟨_, classify_failure h2,
      congrArg Host.Outcome.next (replyDs2_failure (s := { t with detail := some .ok }) h0 h3 h2)⟩
  · exact congrArg Host.Outcome.next (replyDs2_success (s := { t with detail := some .ok }) h0 h3 h2)

/-! ## The echo phase on a frame that arrives whole (R143 to R146) -/

theorem inv_run {k : Nat} {s t : State} (h : s.Inv) (hrun : Host.Core.run core k s = .next t) : t.Inv := by
  induction k generalizing s with
  | zero =>
    rw [run_zero] at hrun
    cases hrun
    exact h
  | succ k ih =>
    cases hs : step s with
    | next u => exact ih (stepKeepsStateInvariant s u h hs) ((run_step k hs).symm.trans hrun)
    | fault r => rw [run_step_fault k hs] at hrun; cases hrun
    | refused r => rw [run_step_refused k hs] at hrun; cases hrun

theorem lineGives_append {s : State} {f g : List Byte} {rest : List RxAnswer} :
    s.lineGives (f ++ g) rest ↔ s.lineGives f (g.map RxAnswer.byte ++ rest) := by
  simp [State.lineGives]

theorem schedule_fed {s : State} {need : Half} {p : List Byte} {n : Nat} {sched : List Turn}
    (hs : s.schedule = List.replicate (p.length + n) .engine ++ sched) :
    (s.fed need p).schedule = List.replicate n .engine ++ sched := by
  show s.schedule.drop p.length = _
  rw [hs, List.replicate_add, List.append_assoc, List.drop_left' List.length_replicate]

/-- Received bytes leave TX_FRAME alone. -/
theorem txByte_fed {s : State} (hwf : s.mem.wf = true) (need : Half) (p : List Byte) {i : Nat} (hi : i < 260) :
    (s.fed need p).txByte i = s.txByte i :=
  Memory.read_writeBytes_outside hwf p rxBase _ (.inl (by simp only [txBase, rxBase]; omega))

/-- The state in which the reply is awaited, once the bytes `e` were taken as the echo. -/
def State.echoed (s : State) (need : Half) (e : List Byte) : State := State.echoFinish .ok (s.fed need e)

section
variable {s : State} {e : List Byte} {rest : List RxAnswer} {sched : List Turn} {n : Nat} (h : s.Inv)
  (hp : s.phase = .awaitingEcho) (hc : s.rxCount = 0) (hline : s.lineGives e rest)
  (hs : s.schedule = List.replicate (e.length + n) .engine ++ sched) (hsum : xorFold e = 0x00)
include h hp hc hline hs hsum

theorem run_echoDs2 (hcmd : s.cmd = 0x06) (h3 : 3 ≤ e.length) (hl : (e.getD 1 0).toNat = e.length) :
    Host.Core.run core e.length s = .next (s.echoed (ds2Need e) e) := by
  have hr := runs_echoDs2 hp hcmd
  rw [run_ds2_whole hr hc (h.decNeed_frameStart hr.1 hc) (h.decAcc_frameStart hc) hs hline (Nat.le_add_right _ n) h3 hl,
    if_pos hsum]
  rfl

theorem run_echoKwp (hcmd : s.cmd = 0x07) (h5 : 5 ≤ e.length) (h0 : e.getD 0 0 = Config.kwpHeader)
    (hl : (e.getD 3 0).toNat + 5 = e.length) :
    Host.Core.run core e.length s = .next (s.echoed (kwpNeed e) e) := by
  have hr := runs_echoKwp hp hcmd
  rw [run_kwp_whole hr hc (h.decNeed_frameStart hr.1 hc) (h.decAcc_frameStart hc) hs hline (Nat.le_add_right _ n) h5 h0
    hl, if_pos hsum]
  rfl

end

/-- Settles O56: the frame is decoded to its last byte, its checksum is right, and no byte of it is looked at. -/
theorem echoIsNotCompared : Obligations.EchoIsNotCompared := by
  intro s e rest sched h hp hc hvalid hframe hline hs
  have hlen : 3 ≤ e.length ∧ e.length ≤ 260 := by
    have := (e.getD 1 0).isLt
    have := (e.getD 3 0).isLt
    omega
  have hsum := (xorFold_dropLast (List.ne_nil_of_length_pos (by omega))).2 hvalid
  have hrun : ∃ need, Host.Core.run core e.length s = .next (s.echoed need e) := by
    obtain ⟨hcmd, h3, hl⟩ | ⟨hcmd, h5, h0, hl⟩ := hframe
    · exact ⟨_, run_echoDs2 (n := 0) h hp hc hline hs hsum hcmd h3 hl⟩
    · exact ⟨_, run_echoKwp (n := 0) h hp hc hline hs hsum hcmd h5 h0 hl⟩
  obtain ⟨need, hrun⟩ := hrun
  exact ⟨_, hrun, rfl, toNat_rxCount_fed (s := s) (need := need) hlen.2, rfl, rx_fed (need := need) hline⟩

/-! ## The reply phase on a frame that arrives whole (R147 to R155) -/

/-- Bytes in a row of the received frame. -/
theorem readBytes_of_rxFrame {s : State} {f : List Byte} (h : s.rxFrame = f) {k l : Nat} (hl : k + l ≤ f.length) :
    s.mem.readBytes (0x400 + k) l = (f.drop k).take l := by
  subst h
  rw [length_rxFrame] at hl
  exact Memory.readBytes_within s.mem 0x400 hl

theorem zext16_eq_ofNat {b : Byte} {n : Nat} (h : b.toNat = n) : zext16 b = BitVec.ofNat 16 n := by
  have hb := b.isLt
  apply BitVec.eq_of_toNat_eq
  rw [toNat_zext16, h, BitVec.toNat_ofNat]
  omega

section
variable {s : State} {a b : Byte} {d : List Byte}

/-- R149 to R153: a reply from the target with status 0xA0. -/
theorem replyDs2Finish_success (hframe : s.rxFrame = encodeDs2 a (0xA0 :: d)) (hd : d.length ≤ 251)
    (hsent : s.txByte 0 = a) : State.replyDs2Finish .ok s = State.complete { s with
      detail := some .ok, statusRaw := 0xA0, statusClass := .ok, payOff := 3, payLen := BitVec.ofNat 16 d.length } := by
  have hbyte : ∀ i, i < d.length + 4 → s.rxByte i = (encodeDs2 a (0xA0 :: d)).getD i 0 := fun i hi =>
    rxByte_of_rxFrame hframe (by rwa [length_encodeDs2])
  have hlength : (s.rxByte 1).toNat = d.length + 4 := by
    rw [hbyte 1 (by omega)]
    exact toNat_getD_one_encodeDs2 a (p := 0xA0 :: d) (Nat.succ_le_succ hd)
  have hstatus : s.rxByte 1 ≠ 3 := fun h3 => by
    rw [h3, show (3 : Byte).toNat = 3 from rfl] at hlength
    omega
  have hwindow : zext16 (s.rxByte 1) - 4 = BitVec.ofNat 16 d.length := by
    rw [zext16_eq_ofNat hlength, BitVec.ofNat_add]
    exact BitVec.add_sub_cancel _ _
  rw [← hwindow]
  exact replyDs2_success (s := { s with detail := some .ok }) ((hbyte 0 (by omega)).trans hsent.symm) hstatus
    (hbyte 2 (by omega))

/-- R155: any KWP2000 reply. -/
theorem replyKwpFinish_success (hframe : s.rxFrame = encodeKwp a b d) (hd : d.length ≤ 255) :
    State.replyKwpFinish .ok s = State.complete { s with
      detail := some .ok, payOff := 4, payLen := BitVec.ofNat 16 d.length } := by
  have hlength : (s.rxByte 3).toNat = d.length := by
    rw [rxByte_of_rxFrame hframe (by rw [length_encodeKwp]; omega)]
    exact toNat_getD_three_encodeKwp a b hd
  rw [← zext16_eq_ofNat hlength]
  rfl

end

/-- The end of XACT_DS2 with the reply's data `d` after the status byte 0xA0. -/
def State.ds2Replied (s : State) (d : List Byte) : State :=
  let g := encodeDs2 s.reqTarget (0xA0 :: d)
  State.complete { s.fed (ds2Need g) g with
    detail := some .ok, statusRaw := 0xA0, statusClass := .ok, payOff := 3, payLen := BitVec.ofNat 16 d.length }

/-- The end of XACT_KWP with the reply's payload `d`. -/
def State.kwpReplied (s : State) (a b : Byte) (d : List Byte) : State :=
  let g := encodeKwp a b d
  State.complete { s.fed (kwpNeed g) g with detail := some .ok, payOff := 4, payLen := BitVec.ofNat 16 d.length }

section
variable {s : State} {a b : Byte} {d : List Byte} {rest : List RxAnswer} {sched : List Turn} (h : s.Inv)
include h

/-- The payload window holds the reply's data (R153). -/
theorem payload_ds2Replied (hd : d.length ≤ 251) : (s.ds2Replied d).mem.readBytes (0x400 + 3) d.length = d := by
  have hlen : (encodeDs2 s.reqTarget (0xA0 :: d)).length = d.length + 4 := length_encodeDs2 ..
  have hframe : (s.ds2Replied d).rxFrame = encodeDs2 s.reqTarget (0xA0 :: d) :=
    rxFrame_fed (need := 0) h.memWf (by omega)
  rw [readBytes_of_rxFrame hframe (by omega)]
  exact List.take_left' rfl

/-- The payload window holds the reply's payload (R155). -/
theorem payload_kwpReplied (hd : d.length ≤ 255) : (s.kwpReplied a b d).mem.readBytes (0x400 + 4) d.length = d := by
  have hlen : (encodeKwp a b d).length = d.length + 5 := length_encodeKwp ..
  have hframe : (s.kwpReplied a b d).rxFrame = encodeKwp a b d := rxFrame_fed (need := 0) h.memWf (by omega)
  rw [readBytes_of_rxFrame hframe (by omega)]
  exact List.take_left' rfl

variable (hp : s.phase = .awaitingReply) (hc : s.rxCount = 0)
include hp hc

theorem run_replyDs2 (hcmd : s.cmd = 0x06) (hd : d.length ≤ 251)
    (hline : s.lineGives (encodeDs2 s.reqTarget (0xA0 :: d)) rest)
    (hs : s.schedule = List.replicate (d.length + 4) .engine ++ sched) :
    Host.Core.run core (d.length + 4) s = .next (s.ds2Replied d) := by
  have hr := runs_replyDs2 hp hcmd
  have hlen : (encodeDs2 s.reqTarget (0xA0 :: d)).length = d.length + 4 := length_encodeDs2 ..
  have hbyte := toNat_getD_one_encodeDs2 s.reqTarget (p := 0xA0 :: d) (Nat.succ_le_succ hd)
  obtain ⟨_, _, hsent⟩ := h.sent (.inr hp)
  have hrun := run_ds2_whole hr hc (h.decNeed_frameStart hr.1 hc) (h.decAcc_frameStart hc) hs hline (Nat.le_of_eq hlen)
    (by omega) (hbyte.trans hlen.symm)
  rw [if_pos (xorFold_encodeDs2 _ _), hlen, replyDs2Finish_success (rxFrame_fed h.memWf (by omega)) hd
    ((txByte_fed h.memWf _ _ (by decide)).trans (hsent hcmd))] at hrun
  exact hrun

theorem run_replyKwp (hcmd : s.cmd = 0x07) (hd : d.length ≤ 255) (hline : s.lineGives (encodeKwp a b d) rest)
    (hs : s.schedule = List.replicate (d.length + 5) .engine ++ sched) :
    Host.Core.run core (d.length + 5) s = .next (s.kwpReplied a b d) := by
  have hr := runs_replyKwp hp hcmd
  have hlen : (encodeKwp a b d).length = d.length + 5 := length_encodeKwp ..
  have hbyte := toNat_getD_three_encodeKwp a b hd
  have hrun := run_kwp_whole hr hc (h.decNeed_frameStart hr.1 hc) (h.decAcc_frameStart hc) hs hline (Nat.le_of_eq hlen)
    (by omega) rfl (by omega)
  rw [if_pos (xorFold_encodeKwp _ _ _), hlen, replyKwpFinish_success (rxFrame_fed h.memWf (by omega)) hd] at hrun
  exact hrun

end

/-! ## Both transactions end to end -/

/-- Settles O58: the accept, the echo's bytes and the reply's bytes. -/
theorem ds2TransactionEndToEnd : Obligations.Ds2TransactionEndToEnd := by
  intro s d rest sched h hb hpresent hfit hd hline hs
  have hexec := exec_xactDs2 hb hpresent hfit
  have hu := inv_exec h hexec
  have hsize := length_ds2Request s
  have hlength : (s.ds2Request.getD 1 0).toNat = s.ds2Request.length := by
    rw [hsize, ← length_payload]
    exact toNat_getD_one_encodeDs2 s.reqTarget (by rwa [length_payload])
  rw [← hsize] at hs ⊢
  have hline := lineGives_append.1 hline
  have hrest : State.lineGives (s.fed 0 s.ds2Request) (encodeDs2 s.reqTarget (0xA0 :: d)) rest := rx_fed hline
  have hecho := run_echoDs2 hu rfl rfl hline hs (xorFold_encodeDs2 _ _) rfl (by omega) hlength
  have hv := inv_run hu hecho
  have hreply := run_replyDs2 hv rfl rfl rfl hd hrest (schedule_fed (need := 0) hs)
  refine ⟨_, _, hexec, (run_add hecho).trans hreply, rfl, rfl, rfl, rfl, rfl, ?_, rfl, ?_, payload_ds2Replied hv hd, rfl,
    ?_⟩
  · exact toNat_ofNat_count (by omega)
  · exact toNat_ofNat_count (by omega)
  · exact rx_fed (need := 0) hrest

/-- Settles O59: the accept, the echo's bytes and the reply's bytes. -/
theorem kwpTransactionEndToEnd : Obligations.KwpTransactionEndToEnd := by
  intro s a b d rest sched h hb hpresent hd hline hs
  have hexec := exec_xactKwp hb hpresent
  have hu := inv_exec h hexec
  have hsize := length_kwpRequest s
  have hbyte := s.reqLen.isLt
  have hlength : (s.kwpRequest.getD 3 0).toNat + 5 = s.kwpRequest.length := by
    rw [hsize, ← length_payload]
    exact congrArg (· + 5) (toNat_getD_three_encodeKwp _ _ (by rw [length_payload]; omega))
  rw [← hsize] at hs ⊢
  have hline := lineGives_append.1 hline
  have hrest : State.lineGives (s.fed 0 s.kwpRequest) (encodeKwp a b d) rest := rx_fed hline
  have hecho := run_echoKwp hu rfl rfl hline hs (xorFold_encodeKwp _ _ _) rfl (by omega) rfl hlength
  have hv := inv_run hu hecho
  have hreply := run_replyKwp hv rfl rfl rfl hd hrest (schedule_fed (need := 0) hs)
  refine ⟨_, _, hexec, (run_add hecho).trans hreply, rfl, rfl, rfl, rfl, ?_, rfl, ?_, payload_kwpReplied hv hd, rfl, ?_⟩
  · exact toNat_ofNat_count (by omega)
  · exact toNat_ofNat_count (by omega)
  · exact rx_fed (need := 0) hrest

end Sys2Proof.Machine
end

section
/-! PROOFS. A command depends on nothing that an earlier command left (R157): two states at the same point of the same
command stay so, from the accept on and over every step of the Engine. -/

namespace Sys2Proof.Machine

/-! ## The request (R29 to R32, R140) -/

namespace State.sameRequest

variable {s t : State} (h : s.sameRequest t)
include h

theorem tooLong_eq : t.tooLong = s.tooLong := by
  obtain ⟨_, _, hlen, _⟩ := h
  rw [State.tooLong, hlen]
  rfl

theorem payload_eq : t.payload = s.payload := by
  obtain ⟨_, _, hlen, _, hpayload, _⟩ := h
  have hbyte := s.reqLen.isLt
  rw [State.payload, State.payload, hlen]
  exact Memory.readBytes_congr fun i hi => hpayload i (by omega)

theorem ds2Request_eq : t.ds2Request = s.ds2Request := by
  obtain ⟨htarget, _⟩ := id h
  rw [State.ds2Request, State.ds2Request, h.payload_eq, htarget]

theorem kwpRequest_eq : t.kwpRequest = s.kwpRequest := by
  obtain ⟨htarget, hsource, _⟩ := id h
  rw [State.kwpRequest, State.kwpRequest, h.payload_eq, htarget, hsource]

theorem csumPresent_eq : t.csumPresent = s.csumPresent := by
  obtain ⟨_, _, hlen, hwritten, _⟩ := h
  simp only [State.csumPresent, State.lenWritten, State.payloadWritten, hlen, hwritten]

theorem ds2Present_eq : t.ds2Present = s.ds2Present := by
  obtain ⟨_, _, hlen, hwritten, _⟩ := h
  simp only [State.ds2Present, State.lenWritten, State.tooLong, State.targetWritten, State.payloadWritten, hlen, hwritten]

theorem kwpPresent_eq : t.kwpPresent = s.kwpPresent := by
  obtain ⟨_, _, hlen, hwritten, _⟩ := h
  simp only [State.kwpPresent, State.lenWritten, State.targetWritten, State.sourceWritten, State.payloadWritten, hlen,
    hwritten]

/-- The same frame stored in TX_FRAME leaves the request the same. -/
theorem storeTx (hs : s.mem.wf = true) (ht : t.mem.wf = true) (f : List Byte) :
    (s.storeTx f).sameRequest (t.storeTx f) := by
  obtain ⟨htarget, hsource, hlen, hwritten, hpayload, hrx, htaken⟩ := h
  exact ⟨htarget, hsource, hlen, hwritten, fun i hi => Memory.read_writeBytes_alike hs ht f (hpayload i hi), hrx, htaken⟩

end State.sameRequest

/-! ## The commands at their accept (R140) -/

theorem sameTxFrame_storeTx {s t : State} (hs : s.mem.wf = true) (ht : t.mem.wf = true) {f : List Byte}
    (hf : f.length ≤ 260) : (s.storeTx f).sameTxFrame (t.storeTx f) := by
  refine ⟨rfl, fun i hi => ?_⟩
  rw [State.storeTx_txLen, toNat_ofNat_count hf] at hi
  exact (Memory.read_writeBytes_inside ht f txBase i hi).trans (Memory.read_writeBytes_inside hs f txBase i hi).symm

/-- Two states after an accept of the code `c`, from what the command's own part wrote. -/
theorem sameCommand_of_accept {s t : State} (c : Byte) (request : s.sameRequest t)
    (csum : c = 0x01 → t.csumOut = s.csumOut)
    (tx : c = 0x02 ∨ c = 0x03 ∨ c = 0x06 ∨ c = 0x07 → s.sameTxFrame t ∧ (s.txLen ≠ 0 → t.csumOut = s.csumOut))
    (echo : c = 0x06 ∨ c = 0x07 → s.txLen ≠ 0 →
      t.echoCount = s.echoCount ∧ t.txLog.getLast? = s.txLog.getLast?)
    (decode : s.busy = true → s.rxCount = 0 ∧ t.rxCount = 0 ∧ t.decNeed = s.decNeed ∧ t.decAcc = s.decAcc)
    (cmd : s.cmd = c := by rfl) (cmd' : t.cmd = c := by rfl) (phase : t.phase = s.phase := by rfl)
    (result : t.result = s.result := by rfl) (detail : s.detail = none := by rfl) (detail' : t.detail = none := by rfl)
    (statusClass : t.statusClass = s.statusClass := by rfl) (statusRaw : t.statusRaw = s.statusRaw := by rfl)
    (payOff : t.payOff = s.payOff := by rfl) (payLen : t.payLen = s.payLen := by rfl) : s.sameCommand t where
  request := request
  cmd := cmd'.trans cmd.symm
  phase := phase
  result := result
  detail := detail'.trans detail.symm
  statusClass := statusClass
  statusRaw := statusRaw
  payOff := payOff
  payLen := payLen
  csum := cmd ▸ csum
  tx := cmd ▸ tx
  echo := cmd ▸ echo
  rx hrun := by
    obtain ⟨hs, ht, _⟩ := decode (hrun.resolve_right fun h => h detail)
    exact ⟨ht.trans hs.symm, fun i hi => by simp [hs] at hi⟩
  decoder hb := (decode hb).2.2

section
variable {s t : State} (h : s.sameRequest t)
include h

theorem csumBody_same : (s.accepted 0x01).csumBody.sameCommand (t.accepted 0x01).csumBody :=
  sameCommand_of_accept 0x01 h (fun _ => congrArg xorFold h.payload_eq) (fun hc => absurd hc (by decide))
    (fun hc => absurd hc (by decide)) nofun

theorem raiseTooLong_same {c : Byte} (hc : c ≠ 0x01) :
    (s.accepted c).raiseTooLong.sameCommand (t.accepted c).raiseTooLong :=
  sameCommand_of_accept c h (fun h1 => absurd h1 hc) (fun _ => ⟨⟨rfl, nofun⟩, fun hl => absurd rfl hl⟩)
    (fun _ hl => absurd rfl hl) nofun

/-- The two DS2 commands with a request (R100, R141): PAYLOAD_TOO_LONG, or `k` with the request frame. -/
theorem ds2Body_same {c : Byte} {k : List Byte → State → State} (hc : c ≠ 0x01)
    (hk : (k s.ds2Request (s.accepted c)).sameCommand (k s.ds2Request (t.accepted c))) :
    (if (s.accepted c).tooLong then (s.accepted c).raiseTooLong
      else k (s.accepted c).ds2Request (s.accepted c)).sameCommand
      (if (t.accepted c).tooLong then (t.accepted c).raiseTooLong
        else k (t.accepted c).ds2Request (t.accepted c)) := by
  have htoo : (t.accepted c).tooLong = (s.accepted c).tooLong := h.tooLong_eq
  have hframe : (t.accepted c).ds2Request = s.ds2Request := h.ds2Request_eq
  rw [htoo, hframe]
  split
  · exact raiseTooLong_same h hc
  · exact hk

theorem beginDecode_same {c : Byte} (hc : c = 0x04 ∨ c = 0x05) :
    (s.accepted c).beginDecode.sameCommand (t.accepted c).beginDecode := by
  have hno : c ≠ 0x01 ∧ ¬ (c = 0x02 ∨ c = 0x03 ∨ c = 0x06 ∨ c = 0x07) ∧ ¬ (c = 0x06 ∨ c = 0x07) := by
    obtain rfl | rfl := hc <;> decide
  obtain ⟨hcsum, htx, hecho⟩ := hno
  exact sameCommand_of_accept c h (absurd · hcsum) (absurd · htx) (absurd · hecho) fun _ => ⟨rfl, rfl, rfl, rfl⟩

/-- R72: a reserved code has no result but its failure. -/
theorem raiseIllegal_same {c : Byte} (hc : commandOf c = none) :
    ((s.accepted c).raise .illegalCommand).sameCommand ((t.accepted c).raise .illegalCommand) := by
  have hne : ∀ k : Command, c ≠ k.code := by
    rintro k rfl
    cases k <;> cases hc
  exact sameCommand_of_accept c h (fun h1 => absurd h1 (hne .csum))
    (fun hc => absurd hc (by simpa using ⟨hne .encDs2, hne .encKwp, hne .xactDs2, hne .xactKwp⟩))
    (fun hc => absurd hc (by simpa using ⟨hne .xactDs2, hne .xactKwp⟩)) nofun

variable (hs : s.mem.wf = true) (ht : t.mem.wf = true)
include hs ht

theorem storeTx_complete_same {c : Byte} (hc : c = 0x02 ∨ c = 0x03) {f : List Byte} (hf : f.length ≤ 260) :
    ((s.accepted c).storeTx f).complete.sameCommand ((t.accepted c).storeTx f).complete :=
  sameCommand_of_accept c (h.storeTx hs ht f) (fun _ => rfl) (fun _ => ⟨sameTxFrame_storeTx hs ht hf, fun _ => rfl⟩)
    (fun h6 => by obtain rfl | rfl := hc <;> exact absurd h6 (by decide)) nofun

theorem transmit_same (c : Byte) {f : List Byte} (hf : f.length ≤ 260) :
    ((s.accepted c).transmit f).sameCommand ((t.accepted c).transmit f) :=
  sameCommand_of_accept c (h.storeTx hs ht f) (fun _ => rfl) (fun _ => ⟨sameTxFrame_storeTx hs ht hf, fun _ => rfl⟩)
    (fun _ _ => ⟨rfl, by simp⟩) fun _ => ⟨rfl, rfl, rfl, rfl⟩

theorem encDs2Body_same : (s.accepted 0x02).encDs2Body.sameCommand (t.accepted 0x02).encDs2Body :=
  have hlen : s.ds2Request.length ≤ 260 := by rw [length_ds2Request]; have := s.reqLen.isLt; omega
  ds2Body_same (k := fun f w => (w.storeTx f).complete) h (by decide) (storeTx_complete_same h hs ht (.inl rfl) hlen)

theorem xactDs2Body_same : (s.accepted 0x06).xactDs2Body.sameCommand (t.accepted 0x06).xactDs2Body :=
  have hlen : s.ds2Request.length ≤ 260 := by rw [length_ds2Request]; have := s.reqLen.isLt; omega
  ds2Body_same (k := State.transmit) h (by decide) (transmit_same h hs ht _ hlen)

theorem encKwpBody_same : (s.accepted 0x03).encKwpBody.sameCommand (t.accepted 0x03).encKwpBody := by
  have hlen : s.kwpRequest.length ≤ 260 := by rw [length_kwpRequest]; have := s.reqLen.isLt; omega
  have hframe : (t.accepted 0x03).kwpRequest = (s.accepted 0x03).kwpRequest := h.kwpRequest_eq
  rw [State.encKwpBody, State.encKwpBody, hframe]
  exact storeTx_complete_same h hs ht (.inr rfl) hlen

theorem xactKwpBody_same : (s.accepted 0x07).xactKwpBody.sameCommand (t.accepted 0x07).xactKwpBody := by
  have hlen : s.kwpRequest.length ≤ 260 := by rw [length_kwpRequest]; have := s.reqLen.isLt; omega
  have hframe : (t.accepted 0x07).kwpRequest = (s.accepted 0x07).kwpRequest := h.kwpRequest_eq
  rw [State.xactKwpBody, State.xactKwpBody, hframe]
  exact transmit_same h hs ht _ hlen

end

/-- The accept with the operands present in both states, from what the command's own part leaves. -/
theorem accept_same {s t : State} {c : Byte} {present : State → Bool} {body : State → State} (hb : s.busy = false)
    (hb' : t.busy = false) (hp : present s = true) (hsame : present t = present s)
    (h : (body (s.accepted c)).sameCommand (body (t.accepted c))) :
    ∃ s' t', Host.Outcome.next (φ := Fault) (ρ := Refusal) (s.accept c present body) = .next s' ∧
      Host.Outcome.next (φ := Fault) (ρ := Refusal) (t.accept c present body) = .next t' ∧ s'.sameCommand t' :=
  ⟨_, _, congrArg Host.Outcome.next (accept_run c body hb hp),
    congrArg Host.Outcome.next (accept_run c body hb' (hsame.trans hp)), h⟩

/-- Settles O46, by the command that the code selects. -/
theorem acceptIgnoresEarlierCommands : Obligations.AcceptIgnoresEarlierCommands := by
  intro s t c hs ht hb hb' h hp
  rw [decodeCmd8] at hp ⊢
  cases hk : commandOf c with
  | none =>
    exact accept_same hb hb' rfl rfl (raiseIllegal_same h hk)
  | some k =>
    rw [hk] at hp
    cases k with
    | csum => exact accept_same hb hb' hp h.csumPresent_eq (csumBody_same h)
    | encDs2 => exact accept_same hb hb' hp h.ds2Present_eq (encDs2Body_same h hs ht)
    | encKwp => exact accept_same hb hb' hp h.kwpPresent_eq (encKwpBody_same h hs ht)
    | decDs2 => exact accept_same hb hb' rfl rfl (beginDecode_same h (.inl rfl))
    | decKwp => exact accept_same hb hb' rfl rfl (beginDecode_same h (.inr rfl))
    | xactDs2 => exact accept_same hb hb' hp h.ds2Present_eq (xactDs2Body_same h hs ht)
    | xactKwp => exact accept_same hb hb' hp h.kwpPresent_eq (xactKwpBody_same h hs ht)

/-! ## One decoder step from both states (R103, R123) -/

namespace State.sameCommand

variable {s t : State} (h : s.sameCommand t)
include h

theorem rxAnswer_eq : t.rxAnswer = s.rxAnswer := by
  obtain ⟨_, _, _, _, _, hrx, htaken⟩ := h.request
  rw [State.rxAnswer, State.rxAnswer, hrx, htaken]

theorem takeTurn : s.takeTurn.sameCommand t.takeTurn := { h with request := h.request }

theorem rxConsume : s.rxConsume.sameCommand t.rxConsume := by
  obtain ⟨htarget, hsource, hlen, hwritten, hpayload, hrx, htaken⟩ := h.request
  exact { h with request :=
    ⟨htarget, hsource, hlen, hwritten, hpayload, congrArg List.tail hrx, congrArg (· + 1) htaken⟩ }

variable (hb : s.busy = true)
include hb

theorem rxCount_eq : t.rxCount = s.rxCount := (h.rx (.inl hb)).1

theorem rxByte_eq {i : Nat} (hi : i < s.rxCount.toNat) : t.rxByte i = s.rxByte i := (h.rx (.inl hb)).2 i hi

theorem timeoutVerdict_eq : t.timeoutVerdict = s.timeoutVerdict := by
  rw [State.timeoutVerdict, State.timeoutVerdict, h.rxCount_eq hb]

theorem frameEnd_eq : t.frameEnd = s.frameEnd := by
  obtain ⟨hneed, hacc⟩ := h.decoder hb
  rw [State.frameEnd, State.frameEnd, h.rxCount_eq hb, hneed, hacc]

theorem setNeed (need : Half) : (s.setNeed need).sameCommand (t.setNeed need) :=
  { h with decoder := fun _ => ⟨rfl, (h.decoder hb).2⟩ }

theorem storeRx (hs : s.mem.wf = true) (ht : t.mem.wf = true) (hn : s.rxCount.toNat < 260) (r : Byte) :
    (s.storeRx r).sameCommand (t.storeRx r) := by
  obtain ⟨htarget, hsource, hlen, hwritten, hpayload, hline⟩ := h.request
  obtain ⟨hneed, hacc⟩ := h.decoder hb
  have hcount := h.rxCount_eq hb
  have hread : ∀ a, (rxBase + s.rxCount.toNat ≠ a → t.mem.read a = s.mem.read a) →
      (t.storeRx r).mem.read a = (s.storeRx r).mem.read a := fun a ha => by
    rw [State.storeRx_mem, State.storeRx_mem, hcount]
    exact Memory.read_write_alike hs ht r ha
  exact { h with
    request := ⟨htarget, hsource, hlen, hwritten, fun i hi => hread _ fun _ => hpayload i hi, hline⟩
    tx := fun hc =>
      have ⟨⟨hlen, hframe⟩, hcsum⟩ := h.tx hc
      ⟨⟨hlen, fun i hi => hread _ fun _ => hframe i hi⟩, hcsum⟩
    rx := fun _ => ⟨congrArg (· + 1) hcount, fun i hi => hread _ fun hne => h.rxByte_eq hb (by
      rw [State.storeRx_rxCount, toNat_count_succ hn] at hi
      omega)⟩
    decoder := fun _ => ⟨hneed, congrArg (· ^^^ r) hacc⟩ }

end State.sameCommand

/-- Two decoder steps with the same verdict, which leave the same of the command. -/
def SameStep (x y : Option Verdict × State) : Prop := y.1 = x.1 ∧ x.2.sameCommand y.2

theorem sameStep_frameEnd {s t : State} (h : s.sameCommand t) (hb : s.busy = true) :
    SameStep (s.frameEnd, s) (t.frameEnd, t) := ⟨h.frameEnd_eq hb, h⟩

section
variable {s t : State} (h : s.sameCommand t) (hb : s.busy = true) (hs : s.mem.wf = true) (ht : t.mem.wf = true)
  (hn : s.rxCount.toNat < 260)
include h hb hs ht hn

theorem ds2Byte_same (r : Byte) : SameStep (s.ds2Byte r) (t.ds2Byte r) := by
  have hstored := h.storeRx hb hs ht hn r
  rw [State.ds2Byte, State.ds2Byte, h.rxCount_eq hb]
  split_ifs
  · exact ⟨rfl, hstored⟩
  · exact sameStep_frameEnd (hstored.setNeed hb _) hb
  · exact sameStep_frameEnd hstored hb

theorem kwpByte_same (r : Byte) : SameStep (s.kwpByte r) (t.kwpByte r) := by
  have hstored := h.storeRx hb hs ht hn r
  rw [State.kwpByte, State.kwpByte, h.rxCount_eq hb]
  split_ifs
  · exact ⟨rfl, hstored⟩
  · exact sameStep_frameEnd (hstored.setNeed hb _) hb
  · exact sameStep_frameEnd hstored hb

theorem decStepDs2_same : SameStep s.decStepDs2 t.decStepDs2 := by
  cases ha : s.rxAnswer with
  | timeout =>
    rw [decStepDs2_timeout ha, decStepDs2_timeout (h.rxAnswer_eq.trans ha)]
    exact ⟨congrArg some (h.timeoutVerdict_eq hb), h.rxConsume⟩
  | byte r =>
    rw [decStepDs2_byte ha, decStepDs2_byte (h.rxAnswer_eq.trans ha)]
    exact ds2Byte_same h.rxConsume hb hs ht hn r

theorem decStepKwp_same : SameStep s.decStepKwp t.decStepKwp := by
  cases ha : s.rxAnswer with
  | timeout =>
    rw [decStepKwp_timeout ha, decStepKwp_timeout (h.rxAnswer_eq.trans ha)]
    exact ⟨congrArg some (h.timeoutVerdict_eq hb), h.rxConsume⟩
  | byte r =>
    rw [decStepKwp_byte ha, decStepKwp_byte (h.rxAnswer_eq.trans ha)]
    exact kwpByte_same h.rxConsume hb hs ht hn r

end

/-! ## The endings from both states -/

section
variable {s t : State} (h : s.sameCommand t) (hb : s.busy = true) {v : Verdict}
include h hb

theorem raise_same (v : Verdict) (r : ResultCode) :
    (State.raise r { s with detail := some v }).sameCommand (State.raise r { t with detail := some v }) :=
  { h with phase := rfl, result := rfl, detail := rfl, rx := fun _ => h.rx (.inl hb), decoder := nofun }

/-- A framed decode's window and class, where both states agree on the length and the status byte. -/
theorem complete_same (off : Half) {len len' : Half} (hlen : len' = len) :
    (State.complete { s with detail := some .ok, payOff := off, payLen := len }).sameCommand
      (State.complete { t with detail := some .ok, payOff := off, payLen := len' }) :=
  { h with
    phase := rfl, result := rfl, detail := rfl, payOff := rfl, payLen := hlen, rx := fun _ => h.rx (.inl hb)
    decoder := nofun }

/-- An ending that fails with `res` of the verdict, from what it does with a frame. -/
theorem finish_same {fin : Verdict → State → State} {res : Verdict → ResultCode}
    (hfails : ∀ {v : Verdict}, v ≠ .ok → ∀ u : State, fin v u = State.raise (res v) { u with detail := some v })
    (hok : v = .ok → (fin .ok s).sameCommand (fin .ok t)) : (fin v s).sameCommand (fin v t) := by
  by_cases hv : v = .ok
  · subst hv
    exact hok rfl
  · rw [hfails hv, hfails hv]
    exact raise_same h hb v _

theorem decDs2Finish_same (hok : v = .ok → 3 ≤ s.rxCount.toNat) :
    (State.decDs2Finish v s).sameCommand (State.decDs2Finish v t) :=
  finish_same h hb decDs2Finish_fails fun hv =>
    complete_same h hb 2 (congrArg (zext16 · - 3) (h.rxByte_eq hb (Nat.lt_of_lt_of_le (by decide) (hok hv))))

theorem decKwpFinish_same (hok : v = .ok → 5 ≤ s.rxCount.toNat) :
    (State.decKwpFinish v s).sameCommand (State.decKwpFinish v t) :=
  finish_same h hb decKwpFinish_fails fun hv =>
    complete_same h hb 4 (congrArg zext16 (h.rxByte_eq hb (Nat.lt_of_lt_of_le (by decide) (hok hv))))

theorem replyKwpFinish_same (hok : v = .ok → 5 ≤ s.rxCount.toNat) :
    (State.replyKwpFinish v s).sameCommand (State.replyKwpFinish v t) :=
  finish_same h hb replyKwpFinish_fails fun hv =>
    complete_same h hb 4 (congrArg zext16 (h.rxByte_eq hb (Nat.lt_of_lt_of_le (by decide) (hok hv))))

/-- R144 to R146: of the echo its length alone counts. -/
theorem echoFinish_same (v : Verdict) : (State.echoFinish v s).sameCommand (State.echoFinish v t) := by
  have hecho : s.cmd = 0x06 ∨ s.cmd = 0x07 → s.txLen ≠ 0 →
      t.rxCount = s.rxCount ∧ t.txLog.getLast? = s.txLog.getLast? := fun hc hl =>
    ⟨h.rxCount_eq hb, (h.echo hc hl).2⟩
  by_cases hv : v = .ok
  · subst hv
    exact { h with
      phase := rfl, detail := rfl, echo := hecho, rx := fun _ => ⟨rfl, nofun⟩, decoder := fun _ => ⟨rfl, rfl⟩ }
  · rw [echoFinish_fails hv, echoFinish_fails hv]
    exact { h with
      phase := rfl, result := rfl, detail := rfl, echo := hecho, rx := fun _ => h.rx (.inl hb), decoder := nofun }

/-- R149 to R153: ReplyDS2 looks at three received bytes and at the first byte that was sent. -/
theorem replyDs2_same (hsender : t.txByte 0 = s.txByte 0) (h3 : 3 ≤ s.rxCount.toNat) :
    s.replyDs2.sameCommand t.replyDs2 := by
  have hgot : ∀ i, i < 3 → t.rxByte i = s.rxByte i := fun i hi => h.rxByte_eq hb (by omega)
  have hrx : s.sameRxFrame t := h.rx (.inl hb)
  rw [State.replyDs2, State.replyDs2, hsender, hgot 0 (by decide), hgot 1 (by decide), hgot 2 (by decide)]
  split_ifs
  · exact { h with phase := rfl, result := rfl, rx := fun _ => hrx, decoder := nofun }
  · exact { h with phase := rfl, result := rfl, rx := fun _ => hrx, decoder := nofun }
  · exact { h with
      phase := rfl, result := rfl, statusRaw := rfl, statusClass := rfl, rx := fun _ => hrx, decoder := nofun }
  · exact { h with
      phase := rfl, result := rfl, statusRaw := rfl, statusClass := rfl, payOff := rfl, payLen := rfl
      rx := fun _ => hrx, decoder := nofun }

theorem replyDs2Finish_same (hc : s.cmd = 0x06) (hok : v = .ok → 3 ≤ s.rxCount.toNat) (hsent : 3 ≤ s.txLen.toNat) :
    (State.replyDs2Finish v s).sameCommand (State.replyDs2Finish v t) :=
  have hsender : t.txByte 0 = s.txByte 0 := (h.tx (.inr (.inr (.inl hc)))).1.2 0 (by omega)
  have hframed : State.sameCommand { s with detail := some .ok } { t with detail := some .ok } :=
    { h with detail := rfl, rx := fun _ => h.rx (.inl hb) }
  finish_same h hb replyDs2Finish_fails fun hv => replyDs2_same hframed hb hsender (hok hv)

end

/-! ## The Engine's step from both states -/

theorem phaseStep_same {x y : Option Verdict × State} {fin : Verdict → State → State} (h : SameStep x y)
    (hfin : ∀ v, x.1 = some v → x.2.sameCommand y.2 → (fin v x.2).sameCommand (fin v y.2)) :
    (phaseStep x fin).sameCommand (phaseStep y fin) := by
  obtain ⟨hverdict, hstate⟩ := h
  unfold phaseStep
  rw [hverdict]
  cases hv : x.1 with
  | none => exact hstate
  | some v => exact hfin v hv hstate

theorem engineStep_same {s t s' : State} (hs : s.Inv) (ht : t.mem.wf = true) (h : s.sameCommand t)
    (hb : s.busy = true) (hstep : engineStep s = .next s') :
    ∃ t', engineStep t = .next t' ∧ s'.sameCommand t' := by
  have hn := hs.rxCount_lt hb
  have hds2 := decStepDs2_same h hb hs.memWf ht hn
  have hkwp := decStepKwp_same h hb hs.memWf ht hn
  obtain ⟨dec, fin, hrun, rfl⟩ := engineStep_cases hb hstep
  obtain ⟨hbusy, hcmd, _⟩ := hrun.dec_keeps
  rw [hb] at hbusy
  refine ⟨_, hrun.runs.2 t h.phase h.cmd (h.rxCount_eq hb ▸ hn), ?_⟩
  cases hrun with
  | decDs2 _ hc =>
    exact phaseStep_same hds2 fun v hv hu => decDs2Finish_same hu hbusy (decStepDs2_ok_count hs hb (.inl hc) hv)
  | decKwp _ hc =>
    exact phaseStep_same hkwp fun v hv hu => decKwpFinish_same hu hbusy (decStepKwp_ok_count hs hb (.inl hc) hv)
  | echoDs2 => exact phaseStep_same hds2 fun v _ hu => echoFinish_same hu hbusy v
  | echoKwp => exact phaseStep_same hkwp fun v _ hu => echoFinish_same hu hbusy v
  | replyDs2 hp hc =>
    exact phaseStep_same hds2 fun v hv hu => replyDs2Finish_same hu hbusy (hcmd.trans hc)
      (decStepDs2_ok_count hs hb (.inr hc) hv) (decStepDs2_sent hs hb (.inr hc) hp)
  | replyKwp _ hc =>
    exact phaseStep_same hkwp fun v hv hu => replyKwpFinish_same hu hbusy (decStepKwp_ok_count hs hb (.inr hc) hv)

/-- Settles O47: both states are BUSY or neither is. -/
theorem engineIgnoresEarlierCommands : Obligations.EngineIgnoresEarlierCommands := by
  intro s t s' hs ht h hn hn' hstep
  have hsame : t.busy = s.busy := congrArg Phase.busy h.phase
  cases hb : s.busy with
  | true =>
    rw [stepGivesOtherTurns.1 s hn hb] at hstep
    rw [stepGivesOtherTurns.1 t hn' (hsame.trans hb)]
    exact engineStep_same (s := s.takeTurn) (hs.env ..) ht.memWf h.takeTurn hb hstep
  | false =>
    obtain rfl : s.takeTurn = s' := Host.Outcome.next.inj ((stepGivesOtherTurns.2.1 s hn hb).symm.trans hstep)
    exact ⟨_, stepGivesOtherTurns.2.1 t hn' (hsame.trans hb), h.takeTurn⟩

end Sys2Proof.Machine
end

section
/-! PROOFS. After a command has ended, its results and its frames stay until the next write of CMD or reset (R176). -/

namespace Sys2Proof.Machine

/-- R37: a command that has ended runs no more. -/
theorem not_busy_of_done {s : State} (h : s.done = true) : s.busy = false := by
  rw [State.done, Bool.or_eq_true, beq_iff_eq, beq_iff_eq] at h
  obtain hp | hp := h
  · exact congrArg Phase.busy hp
  · exact congrArg Phase.busy hp

/-- `t` differs from `s` at most in the request registers, the buffer bytes before the frames, W, the fault mark, the
Host's own fields and the order. -/
structure State.KeepsResults (s t : State) : Prop where
  registers : t = { s with
    reqTarget := t.reqTarget, reqSource := t.reqSource, reqLen := t.reqLen, mem := t.mem, written := t.written
    faultMark := t.faultMark, program := t.program, hostData := t.hostData, schedule := t.schedule
    turnsTaken := t.turnsTaken }
  frames : ∀ x, txBase ≤ x → t.mem.read x = s.mem.read x

/-- No command, and no write of CMD with a byte value. -/
def RunsNoCommand (i : Instr) : Prop :=
  (∃ a, i = .hrd a) ∨ ∃ a d, i = .hwr a d ∧ (a ≠ 0x000 ∨ 0x100 ≤ d.toNat)

theorem execHwr_keepsResults {s t : State} {a : HostAddr} {d : Half} (hno : a ≠ 0x000 ∨ 0x100 ≤ d.toNat)
    (h : execHwr a d s = .next t) : s.KeepsResults t := by
  by_cases ha : a = 0x000
  · subst ha
    have hd : 0x100 ≤ d.toNat := hno.resolve_left (· rfl)
    obtain rfl : s.markFault .badWrite = t :=
      Host.Outcome.next.inj ((execHwr_badWrite (locOf_reg_addr .cmd) rfl hd).symm.trans h)
    exact ⟨rfl, fun _ _ => rfl⟩
  · obtain ⟨t', h', hframe, hmem⟩ := readsHaveNoSideEffect.2 s a d ha
    obtain rfl : t' = t := Host.Outcome.next.inj (h'.symm.trans h)
    refine ⟨by rw [hframe], fun x hx => hmem x fun i _ => ?_⟩
    have hi := i.isLt
    simp only [txBase] at hx
    omega

theorem exec_keepsResults {s t : State} {i : Instr} (hno : RunsNoCommand i) (h : exec i s = .next t) :
    s.KeepsResults t := by
  obtain ⟨a, rfl⟩ | ⟨a, d, rfl, hwrite⟩ := hno
  · obtain ⟨t', h', hframe, _⟩ := readsHaveNoSideEffect.1 s a
    obtain rfl : t' = t := Host.Outcome.next.inj (h'.symm.trans h)
    rw [hframe]
    exact ⟨rfl, fun _ _ => rfl⟩
  · exact execHwr_keepsResults hwrite h

/-- A program that is not refused runs the instruction of its first word (R73). -/
theorem hostAction_of_word {s t : State} {w : FetchWord} {rest : List HostStmt} {i : Instr}
    (h : hostTurn s = .next t) (hp : s.program = .word w :: rest) (hd : decode w = .ok i) : s.hostAction = .run i := by
  cases hok : programOk s.program with
  | false => rw [hostTurn_malformed hok] at h; cases h
  | true =>
    rw [State.hostAction, if_pos hok, hp]
    simp only [hd]

theorem hostTurn_keepsResults {s t : State} (hno : ∀ i, s.hostAction = .run i → RunsNoCommand i)
    (h : hostTurn s = .next t) : s.KeepsResults t := by
  obtain ⟨_, rfl⟩ | ⟨_, rest, i, hp, hd, hexec⟩ | ⟨_, _, _, rfl⟩ | ⟨_, _, _, rfl⟩ := hostTurn_cases h
  · exact ⟨rfl, fun _ _ => rfl⟩
  · obtain ⟨hregisters, hframes⟩ :=
      exec_keepsResults (s := { s with program := rest }) (hno i (hostAction_of_word h hp hd)) hexec
    exact ⟨hregisters, hframes⟩
  · exact ⟨rfl, fun _ _ => rfl⟩
  · exact ⟨rfl, fun _ _ => rfl⟩

/-- R176 for one step: without a reset, and without a command at the Host's place. -/
theorem step_keepsResults {s t : State} (hdone : s.done = true) (hreset : s.nextTurn ≠ .reset)
    (hno : s.nextTurn = .host → ∀ i, s.takeTurn.hostAction = .run i → RunsNoCommand i) (h : step s = .next t) :
    s.KeepsResults t := by
  obtain ⟨hn, ht⟩ | ⟨_, hb, _⟩ | ⟨_, _, rfl⟩ | ⟨hn, _⟩ := step_cases h
  · obtain ⟨hregisters, hframes⟩ := hostTurn_keepsResults (hno hn) ht
    exact ⟨hregisters, hframes⟩
  · rw [not_busy_of_done hdone] at hb
    cases hb
  · exact ⟨rfl, fun _ _ => rfl⟩
  · exact absurd hn hreset

/-- Settles O44: each result register is one of the fields a step keeps, and both frames lie among the bytes it
keeps. -/
theorem resultsStayUntilNextCommand : Obligations.ResultsStayUntilNextCommand := by
  intro s t _ hdone hreset hstep hno
  obtain ⟨h, hframes⟩ := step_keepsResults hdone hreset hno hstep
  have htx : ∀ i, t.txByte i = s.txByte i := fun i => hframes (txBase + i) (Nat.le_add_right _ _)
  have hrx : ∀ i, t.rxByte i = s.rxByte i := fun i =>
    hframes (rxBase + i) (Nat.le_trans (by decide) (Nat.le_add_right _ _))
  rw [h]
  exact ⟨rfl, rfl, rfl, rfl, rfl, rfl, rfl, rfl, rfl, rfl, rfl, rfl, fun i _ => ⟨htx i, hrx i⟩⟩

end Sys2Proof.Machine
end

section
/-! PROOFS. Reset in any STATE (R200), and a transaction on a Line without an echo (R208). -/

namespace Sys2Proof.Machine

/-! ## Reset (R200) -/

theorem step_reset {s : State} (ht : s.nextTurn = .reset) : step s = .next s.takeTurn.applyReset := by
  rw [step, ht]

/-- Settles O3: each field is the one of `State.reset` or the one of before. -/
theorem resetEventInAnyState : Obligations.ResetEventInAnyState := fun _ ht =>
  ⟨_, step_reset ht, rfl, rfl, rfl, rfl, rfl, rfl, rfl, rfl, rfl, rfl, rfl, rfl, rfl, rfl, rfl, rfl, rfl, rfl, rfl⟩

/-- The next place after a run of `k` steps is number `k`. -/
theorem nextTurn_run {k : Nat} {s t : State} (h : Host.Core.run core k s = .next t) : t.nextTurn = s.turnAt k :=
  (turnAt_zero t).symm.trans (turnAt_run h 0)

/-! ## A transaction on a Line without an echo (R208) -/

/-- R104, R125: a TIMEOUT before the first byte of a frame, in either decoder. -/
theorem decStep_noReply {s : State} (ha : s.rxAnswer = .timeout) (hc : s.rxCount = 0) :
    s.decStepDs2 = (some .noReply, s.rxConsume) ∧ s.decStepKwp = (some .noReply, s.rxConsume) := by
  have hverdict : s.timeoutVerdict = .noReply := if_pos hc
  rw [decStepDs2_timeout ha, decStepKwp_timeout ha, hverdict]
  exact ⟨rfl, rfl⟩

/-- R23: a transaction is what runs while an echo or a reply is awaited. -/
theorem State.Inv.cmd_transaction {s : State} (h : s.Inv) (hp : s.phase = .awaitingEcho ∨ s.phase = .awaitingReply) :
    s.cmd = 0x06 ∨ s.cmd = 0x07 := by
  have hfits := h.command
  obtain hp | hp := hp <;> rwa [State.commandFits, hp] at hfits

theorem rxAnswer_of_cons {s : State} {a : RxAnswer} {rest : List RxAnswer} (h : s.rx = a :: rest) : s.rxAnswer = a := by
  rw [State.rxAnswer, h]

theorem nextTurn_of_cons {s : State} {a : Turn} {sched : List Turn} (h : s.schedule = a :: sched) : s.nextTurn = a := by
  rw [State.nextTurn, h]

section
variable {s : State} {rest : List RxAnswer} (h : s.Inv) (hc : s.rxCount = 0) (ht : s.nextTurn = .engine)
  (hrx : s.rx = .timeout :: rest)
include h hc ht hrx

/-- R145: nothing comes back at all. -/
theorem step_noEcho (hp : s.phase = .awaitingEcho) : step s = .next { s.takeTurn.rxConsume with
    detail := some .noReply, echoCount := s.rxCount, phase := .failed, result := .busError } := by
  obtain ⟨hds2, hkwp⟩ := decStep_noReply (s := s.takeTurn) (rxAnswer_of_cons hrx) hc
  obtain ⟨_, _, hfails⟩ := echoPhaseStep s _ _ ht hp (by rw [hc]; decide)
    ((h.cmd_transaction (.inl hp)).imp (fun hc6 => ⟨hc6, hds2⟩) fun hc7 => ⟨hc7, hkwp⟩)
  exact hfails .noReply rfl nofun

/-- R148: no byte of a reply comes. -/
theorem step_noReply (hp : s.phase = .awaitingReply) : step s = .next { s.takeTurn.rxConsume with
    detail := some .noReply, phase := .failed, result := .addressUnreachable } := by
  obtain ⟨hds2, hkwp⟩ := decStep_noReply (s := s.takeTurn) (rxAnswer_of_cons hrx) hc
  exact replyVerdictMapping s _ .noReply .addressUnreachable ht hp (by rw [hc]; decide)
    ((h.cmd_transaction (.inr hp)).imp (fun hc6 => ⟨hc6, hds2⟩) fun hc7 => ⟨hc7, hkwp⟩) (.inl ⟨rfl, rfl⟩)

end

/-- Settles O57: any valid frame is taken for the echo (R144), and then or at once there is nothing to read. -/
theorem missingEchoSwallowsReply : Obligations.MissingEchoSwallowsReply := by
  intro s g rest sched h hp hc
  refine ⟨fun hframe hvalid hline hs => ?_, fun hrx hs => ?_⟩
  · obtain ⟨t, hrun, hphase, hecho, hcount, hrx⟩ := echoIsNotCompared s g (.timeout :: rest) (.engine :: sched) h hp hc
      hvalid hframe hline (by rw [hs, List.replicate_add, List.append_assoc]; rfl)
    have hturn : t.nextTurn = .engine :=
      (nextTurn_run hrun).trans ((turnAt_prefix hs (by simp)).trans (List.getElem_replicate _))
    exact ⟨_, (run_succ hrun).trans (step_noReply (inv_run h hrun) hcount hturn hrx hphase), rfl, rfl, rfl, hecho⟩
  · exact ⟨_, (run_one s).trans (step_noEcho h hc (nextTurn_of_cons hs) hrx hp), rfl, rfl, rfl, hc⟩

end Sys2Proof.Machine
end

section
/-! PROOFS. Under Engine fairness every command ends within its bound, and the Host's polling loop ends (R210). -/

namespace Sys2Proof.Machine

/-! ## Runs, by their first step -/

theorem run_succ_cases {k : Nat} {s t : State} (h : Host.Core.run core (k + 1) s = .next t) :
    ∃ u, step s = .next u ∧ Host.Core.run core k u = .next t := by
  cases hs : step s with
  | next u => exact ⟨u, rfl, (run_step k hs).symm.trans h⟩
  | fault r => rw [run_step_fault k hs] at h; cases h
  | refused r => rw [run_step_refused k hs] at h; cases h

/-! ## Under Engine fairness a running command ends (R210) -/

theorem State.engineFair.step {s t : State} (h : s.engineFair) (hs : step s = .next t) : t.engineFair :=
  fun k u hu => h (k + 1) u ((run_step k hs).trans hu)

/-- What R210 asks of a state in which a command runs. -/
structure State.FairlyRunning (s : State) : Prop where
  inv : s.Inv
  busy : s.busy = true
  programOk : programOk s.program = true
  fair : s.engineFair

/-- After some number of steps, none of them a reset, the command has ended or a reset comes next; with one read and at
most `n` for the Engine's places before it. -/
def State.EndsUnlessReset (s : State) (n : Nat) : Prop :=
  ∃ k t, Host.Core.run core k s = .next t ∧ (∀ j, j < k → s.turnAt j ≠ .reset) ∧
    (t.done = true ∨ t.nextTurn = .reset) ∧ t.rxTaken = s.rxTaken + s.engineTurns k ∧ s.engineTurns k ≤ n

theorem endsUnlessReset_here {s : State} (n : Nat) (h : s.done = true ∨ s.nextTurn = .reset) : s.EndsUnlessReset n :=
  ⟨0, s, run_zero s, nofun, h, rfl, Nat.zero_le n⟩

theorem State.EndsUnlessReset.mono {s : State} {n n' : Nat} (h : s.EndsUnlessReset n) (hn : n ≤ n') :
    s.EndsUnlessReset n' := by
  obtain ⟨k, t, hrun, hreset, hend, htaken, hbound⟩ := h
  exact ⟨k, t, hrun, hreset, hend, htaken, hbound.trans hn⟩

theorem State.EndsUnlessReset.step {s u : State} {e n : Nat} (hs : step s = .next u) (hreset : s.nextTurn ≠ .reset)
    (he : (if s.nextTurn = .engine then 1 else 0) = e) (hread : u.rxTaken = s.rxTaken + e) (h : u.EndsUnlessReset n) :
    s.EndsUnlessReset (e + n) := by
  obtain ⟨k, t, hrun, hnone, hend, htaken, hbound⟩ := h
  have hplaces : s.engineTurns (k + 1) = e + u.engineTurns k := he ▸ engineTurns_step hs k
  refine ⟨k + 1, t, (run_step k hs).trans hrun, fun j hj => ?_, hend, ?_, ?_⟩
  · cases j with
    | zero => rwa [turnAt_zero]
    | succ j => exact turnAt_step hs j ▸ hnone j (Nat.lt_of_succ_lt_succ hj)
  · rw [htaken, hplaces, hread, Nat.add_assoc]
  · rw [hplaces]
    exact Nat.add_le_add_left hbound e

section
variable {s : State} (h : s.FairlyRunning)
include h

/-- R56, R57: the Host's place leaves the running command what it was. -/
theorem State.FairlyRunning.step_host (hn : s.nextTurn = .host) : ∃ u, step s = .next u ∧
    u.FairlyRunning ∧ u.readsLeft = s.readsLeft ∧ u.rxTaken = s.rxTaken := by
  have hturn : s.takeTurn.Inv := h.inv.env ..
  obtain ⟨u, hu⟩ := hostTurn_next (s := s.takeTurn) h.programOk
  have hs : step s = .next u := (Machine.step_host hn).trans hu
  obtain ⟨hub, hleft, htaken⟩ := hostTurn_running (s := s.takeTurn) h.busy hu
  have hok := programOk_hostTurn (s := s.takeTurn) h.programOk hu
  exact ⟨u, hs, ⟨inv_hostTurn hturn hu, hub, hok, h.fair.step hs⟩, hleft, htaken⟩

/-- The Engine's place takes one read, and ends the command or leaves it fewer of them. -/
theorem State.FairlyRunning.step_engine (hn : s.nextTurn = .engine) : ∃ u, step s = .next u ∧
    u.rxTaken = s.rxTaken + 1 ∧ (u.done = true ∨ (u.FairlyRunning ∧ u.readsLeft < s.readsLeft)) := by
  have hturn : s.takeTurn.Inv := h.inv.env ..
  obtain ⟨u, hu⟩ := engineStep_next hturn h.busy
  have hs : step s = .next u := (stepGivesOtherTurns.1 s hn h.busy).trans hu
  have hread := engineStep_oneRead (s := s.takeTurn) h.busy hu
  refine ⟨u, hs, hread.rxTaken, (engineStep_progress hturn h.busy hu).imp_right fun ⟨hub, hfewer⟩ => ⟨?_, hfewer⟩⟩
  exact ⟨inv_engineStep hturn h.busy hu, hub, hread.program.symm ▸ h.programOk, h.fair.step hs⟩

end

section
variable {s : State} {n : Nat} (h : s.FairlyRunning)
include h

/-- At the Engine's place, if a command with fewer reads left ends. -/
theorem endsUnlessReset_engine (hn : s.nextTurn = .engine)
    (hfewer : ∀ u : State, u.FairlyRunning → u.readsLeft < s.readsLeft → u.EndsUnlessReset n) :
    s.EndsUnlessReset (1 + n) := by
  obtain ⟨u, hs, hread, hend⟩ := h.step_engine hn
  have hu : u.EndsUnlessReset n := by
    obtain hdone | ⟨hrunning, hless⟩ := hend
    · exact endsUnlessReset_here n (.inl hdone)
    · exact hfewer u hrunning hless
  exact hu.step hs (by rw [hn]; nofun) (by rw [hn]; rfl) hread

/-- Up to the Engine's place number `j`, if a command with fewer reads left ends. -/
theorem endsUnlessReset_turnAt {j : Nat} (hj : s.turnAt j = .engine)
    (hfewer : ∀ u : State, u.FairlyRunning → u.readsLeft < s.readsLeft → u.EndsUnlessReset n) :
    s.EndsUnlessReset (1 + n) := by
  induction j generalizing s with
  | zero => exact endsUnlessReset_engine h ((turnAt_zero s).symm.trans hj) hfewer
  | succ j ih =>
    cases hn : s.nextTurn with
    | reset => exact endsUnlessReset_here _ (.inr hn)
    | host =>
      obtain ⟨u, hs, hu, hleft, hread⟩ := h.step_host hn
      have hends := ih hu ((turnAt_step hs j).trans hj) fun v hv hless => hfewer v hv (hleft ▸ hless)
      exact (hends.step (e := 0) hs (by rw [hn]; nofun) (by rw [hn]; rfl) hread).mono (Nat.le_of_eq (Nat.zero_add _))
    | engine => exact endsUnlessReset_engine h hn hfewer

/-- R210: by induction on the reads left; fairness gives the place of the next one. -/
theorem endsUnlessReset_of_fair (hn : s.readsLeft ≤ n) : s.EndsUnlessReset n := by
  induction n generalizing s with
  | zero => exact absurd (h.inv.readsLeft_pos h.busy) (by omega)
  | succ n ih =>
    obtain ⟨j, hj⟩ := h.fair 0 s (run_zero s) h.busy
    rw [Nat.add_comm]
    exact endsUnlessReset_turnAt h hj fun u hu hless => ih hu (by omega)

end

/-! ## The Host's polling loop ends (R84, R210) -/

/-- Every step leaves the Host's program or takes its first statement. -/
theorem step_program_suffix {s t : State} (h : step s = .next t) : t.program <:+ s.program := by
  obtain ⟨_, h⟩ | ⟨_, hb, h⟩ | ⟨_, _, rfl⟩ | ⟨_, rfl⟩ := step_cases h
  · obtain ⟨_, rfl⟩ | ⟨w, rest, i, hp, _, h⟩ | ⟨_, _, _, rfl⟩ | ⟨rest, hp, _, rfl⟩ := hostTurn_cases h
    · exact List.suffix_rfl
    · rw [(keeps_exec h).program, show s.program = _ from hp]
      exact List.suffix_cons _ rest
    · exact List.suffix_rfl
    · rw [show s.program = _ from hp]
      exact List.suffix_cons _ rest
  · exact (engineStep_oneRead (s := s.takeTurn) hb h).program ▸ List.suffix_rfl
  · exact List.suffix_rfl
  · exact List.suffix_rfl

theorem run_program_suffix {k : Nat} {s t : State} (h : Host.Core.run core k s = .next t) :
    t.program <:+ s.program := by
  induction k generalizing s with
  | zero => rw [run_zero] at h; cases h; exact List.suffix_rfl
  | succ k ih =>
    obtain ⟨u, hs, hu⟩ := run_succ_cases h
    exact (ih hu).trans (step_program_suffix hs)

/-- `t` has just left the loop `poll` before `rest`, with DONE read. -/
def State.LeftPoll (t : State) (rest : List HostStmt) : Prop :=
  t.program = rest ∧ t.done = true ∧ t.hostData = some (zext16 t.phase.code)

section
variable {s : State} {rest : List HostStmt} (hp : s.program = .poll :: rest)
include hp

/-- One step in the loop leaves it with DONE read, or goes on with it; and once DONE, it goes on only at a place of the
Engine or of a reset. -/
theorem step_poll {t : State} (h : step s = .next t) : t.LeftPoll rest ∨ (t.program = .poll :: rest ∧
    (s.done = true → (s.nextTurn = .engine ∧ t.done = true) ∨ s.nextTurn = .reset)) := by
  obtain ⟨_, h⟩ | ⟨_, hb, h⟩ | ⟨hn, _, rfl⟩ | ⟨hn, rfl⟩ := step_cases h
  · obtain ⟨hp', _⟩ | ⟨_, _, _, hp', _⟩ | ⟨_, _, hd, rfl⟩ | ⟨_, hp', hd, rfl⟩ := hostTurn_cases h
    · cases hp.symm.trans hp'
    · cases hp.symm.trans hp'
    · exact .inr ⟨hp, fun hdone => absurd (hdone.symm.trans hd) nofun⟩
    · cases hp.symm.trans hp'
      exact .inl ⟨rfl, hd, rfl⟩
  · refine .inr ⟨(engineStep_oneRead (s := s.takeTurn) hb h).program.trans hp, fun hdone => ?_⟩
    exact absurd ((not_busy_of_done hdone).symm.trans hb) nofun
  · exact .inr ⟨hp, fun hdone => .inl ⟨hn, hdone⟩⟩
  · exact .inr ⟨hp, fun _ => .inr hn⟩

/-- A run from the loop is still in it or has left it with DONE read. -/
theorem run_poll {k : Nat} {t : State} (h : Host.Core.run core k s = .next t) :
    t.program = .poll :: rest ∨ ∃ i u, Host.Core.run core i s = .next u ∧ u.LeftPoll rest := by
  induction k generalizing s with
  | zero => rw [run_zero] at h; cases h; exact .inl hp
  | succ k ih =>
    obtain ⟨u, hs, hu⟩ := run_succ_cases h
    obtain hleft | ⟨hpu, _⟩ := step_poll hp hs
    · exact .inr ⟨1, u, (run_one s).trans hs, hleft⟩
    · refine (ih hpu hu).imp_right ?_
      rintro ⟨i, v, hrun, hleft⟩
      exact ⟨i + 1, v, (run_step i hs).trans hrun, hleft⟩

end

/-- In the loop `poll` before `rest`, and no reset comes while the Host is in it. -/
structure State.Polls (s : State) (rest : List HostStmt) : Prop where
  program : s.program = .poll :: rest
  noReset : ∀ k u, Host.Core.run core k s = .next u → u.program = .poll :: rest → u.nextTurn ≠ .reset

section
variable {s t : State} {rest : List HostStmt} (h : s.Polls rest)
include h

theorem State.Polls.run {k : Nat} (hrun : Host.Core.run core k s = .next t) (hp : t.program = .poll :: rest) :
    t.Polls rest := ⟨hp, fun n u hu => h.noReset (k + n) u ((run_add hrun).trans hu)⟩

/-- Once DONE, a step in the loop leaves it or is an idle place of the Engine. -/
theorem State.Polls.step_done (hd : s.done = true) (hs : step s = .next t) :
    t.LeftPoll rest ∨ (s.nextTurn = .engine ∧ t.Polls rest ∧ t.done = true) := by
  refine (step_poll h.program hs).imp_right fun ⟨hp, hstays⟩ => ?_
  obtain ⟨hn, hdt⟩ := (hstays hd).resolve_right (h.noReset 0 s (run_zero s) h.program)
  exact ⟨hn, h.run (k := 1) ((run_one s).trans hs) hp, hdt⟩

/-- Once DONE, it stays so as long as the loop goes on. -/
theorem State.Polls.run_done {k : Nat} {u : State} (hd : s.done = true) (hrun : Host.Core.run core k s = .next u)
    (hp : u.program = .poll :: rest) : u.done = true := by
  induction k generalizing s with
  | zero => rw [run_zero] at hrun; cases hrun; exact hd
  | succ k ih =>
    obtain ⟨v, hs, hv⟩ := run_succ_cases hrun
    obtain ⟨hrest, _⟩ | ⟨_, hpolls, hdv⟩ := h.step_done hd hs
    · have hlength := (run_program_suffix hv).length_le
      rw [hp, hrest, List.length_cons] at hlength
      omega
    · exact ih hpolls hdv hv

end

/-- Once DONE, the Host's next round leaves the loop. -/
theorem State.Polls.leaves {rest : List HostStmt} (hok : programOk rest = true) : ∀ (j : Nat) {s : State},
    s.Polls rest → s.Inv → s.done = true → s.turnAt j = .host → ∃ k t, Host.Core.run core k s = .next t ∧ t.LeftPoll rest
  | j, s, h, hinv, hd, hj => by
    obtain ⟨t, hs⟩ := invariantStatesNeverStop s hinv (by rw [h.program]; exact hok)
    obtain hleft | ⟨hn, hpolls, hdt⟩ := h.step_done hd hs
    · exact ⟨1, t, (run_one s).trans hs, hleft⟩
    · cases j with
      | zero =>
        rw [turnAt_zero, hn] at hj
        cases hj
      | succ j =>
        obtain ⟨k, u, hrun, hleft⟩ :=
          leaves hok j hpolls (stepKeepsStateInvariant s t hinv hs) hdt ((turnAt_step hs j).trans hj)
        exact ⟨k + 1, u, (run_step k hs).trans hrun, hleft⟩

/-- R37: out of IDLE a command runs or has ended. -/
theorem busy_or_done {s : State} (h : s.phase ≠ .idle) : s.busy = true ∨ s.done = true := by
  rw [State.busy, State.done]
  cases hp : s.phase with
  | idle => exact absurd hp h
  | decoding | awaitingEcho | awaitingReply => exact .inl rfl
  | complete | failed => exact .inr rfl

/-- A program that is the same after a run was so all along. -/
theorem program_between {k n : Nat} {s t u : State} (hst : Host.Core.run core k s = .next t)
    (htu : Host.Core.run core n t = .next u) (h : u.program = s.program) : t.program = s.program :=
  (run_program_suffix hst).eq_of_length_le (h ▸ (run_program_suffix htu).length_le)

/-- Settles O60: the reads left and the places up to the Engine's next bound a command; and once it has ended, the loop
has no round that reads anything but DONE. -/
theorem fairnessGivesTermination : Obligations.FairnessGivesTermination := by
  refine ⟨fun s n h hb hok hfair hn => endsUnlessReset_of_fair ⟨h, hb, hok, hfair⟩ (h.readsLeft_le hb hn),
    fun s rest h hphase hp hok hfair hreset => ?_⟩
  have hpolls : s.Polls rest := ⟨hp, hreset⟩
  have hends : s.EndsUnlessReset s.readsLeft := by
    obtain hb | hd := busy_or_done hphase
    · exact endsUnlessReset_of_fair ⟨h, hb, by rw [hp]; exact hok, hfair⟩ (Nat.le_refl _)
    · exact endsUnlessReset_here _ (.inl hd)
  obtain ⟨k, t, hrun, _, hend, _⟩ := hends
  have hdone : t.program = .poll :: rest → t.done = true := fun hpt => hend.resolve_right (hreset k t hrun hpt)
  refine ⟨⟨k, fun j u hj hu hpu => ?_⟩, fun hhost => ?_⟩
  · obtain ⟨n, rfl⟩ := Nat.exists_eq_add_of_le hj
    have hu := (run_add hrun).symm.trans hu
    have hpt : t.program = .poll :: rest := (program_between hrun hu (hpu.trans hp.symm)).trans hp
    exact (hpolls.run hrun hpt).run_done (hdone hpt) hu hpu
  · obtain hpt | hleft := run_poll hp hrun
    · obtain ⟨j, hj⟩ := hhost k t hrun hpt
      obtain ⟨i, u, hu, hleft⟩ := State.Polls.leaves hok j (hpolls.run hrun hpt) (inv_run h hrun) (hdone hpt) hj
      exact ⟨k + i, u, (run_add hrun).trans hu, hleft⟩
    · exact hleft

end Sys2Proof.Machine
end
